-- ==== Sys2Proof/Word.lean ====
section
/-! DEFINITION. The words of the cut-path processor: the fixed widths the manual gives to bytes, sequence
numbers, coordinates and time values (00_scope.md "Conventions", 12_frame_and_message_layouts.md). -/

namespace Sys2Proof

/-- One byte of a cell link frame or of a station port message (chapter 12). -/
abbrev Byte := BitVec 8

/-- A path sequence number: 16 bits, wrapping modulo 65,536 (00_scope.md, "Sequence numbers"). -/
abbrev Seq := BitVec 16

/-- A coordinate, centre offset or taper offset: signed 24 bits, copied and never computed with (R58). -/
abbrev Coord := BitVec 24

/-- A value of the time base: 32 bits of microseconds, wrapping (R187). -/
abbrev Time := BitVec 32

/-- A station number, 0 to 3 (00_scope.md, "Station"). -/
abbrev St := Fin 4

end Sys2Proof
end

