-- ==== Sys2Proof/Config.lean ====
section
/-! DEFINITION. What one implementation of the cut-path processor fixes: the sizes of its tables and queues, and
the values the manual leaves open (free values, declared without a body). -/

namespace Sys2Proof.Config

/-- Entries of a station's inbound queue (R45). -/
abbrev queueSize : Nat := 128
/-- Reports a station's report queue holds (R182). -/
abbrev reportQueueSize : Nat := 32
/-- Frames the downstream management buffer holds (R178). -/
abbrev mgmtBufferSize : Nat := 8
/-- Places of the reply queue, built and reserved together (R180). -/
abbrev replyPlaces : Nat := 16
/-- Slots of the Kerf Record Store (R81). -/
abbrev kerfSlots : Nat := 4096
/-- Contours a deferred tab list holds (R129). -/
abbrev deferredSize : Nat := 32
/-- Largest link error count, and largest count of contours completed or failed (R177, R52). -/
abbrev countLimit : Nat := 65535
/-- Largest lost-report count (R182). -/
abbrev lostLimit : Nat := 255
/-- Microseconds in a tenth of a second, the unit of a catch timeout (R73, R187). -/
abbrev tenth : Nat := 100000
/-- The longest catch timeout, 25.5 s, in microseconds (R18). -/
abbrev longestCatchWait : Nat := 25500000
/-- The gain a channel takes when the calibration store is invalid (R188), and the largest gain (R165). -/
abbrev fullGain : Nat := 4095
/-- The catch timeout of a fresh plan, 5.0 s (R19). -/
abbrev freshTimeout : Nat := 50

/-- FREE VALUE (log entry 1). What the calibration store holds as station `st`'s gain after a PART RESET has
ended a write (R189 says only that the store is then invalid). The first argument is `Works.freeCount`. -/
opaque tornGain : Nat → St → BitVec 12

/-- FREE VALUE (log entry 33). Whether the reservation request of an entry follows its forced-tab-pass check with nothing
between them, or only after what the next event does (R65 and R89 allow another station's grant between the two and do
not say when there is one). The argument is `Works.freeCount`. -/
opaque requestFollows : Nat → Bool

end Sys2Proof.Config
end

