-- ==== Sys2Proof/Syntax.lean ====
section
/-! DEFINITION. The commands of the part: one constructor of `Instr` per row of spec/opcode_table.json, with the
operands the row's event carries. A management request carries its arguments in the frame that MGMT_FRAME put in
the management buffer, so the row that takes the request has no operand of its own (log entry 2). -/

namespace Sys2Proof.Machine

/-- A PATH frame whose frame check passed (12.2): the 13 bytes every path body has, and the bytes after them. -/
structure PathFrame where
  station : Byte
  tag     : Byte
  seq     : Seq
  kind    : Byte
  flags   : Byte
  contour : Byte
  ordinal : BitVec 16
  length  : BitVec 24
  feed    : Byte
  rest    : List Byte
  deriving DecidableEq, Repr

/-- A MGMT frame whose frame check passed (12.3): its four opening bytes, and the request's arguments. -/
structure MgmtFrame where
  authority : Byte
  tn        : Byte
  unit      : Byte
  request   : Byte
  args      : List Byte
  deriving DecidableEq, Repr

/-- The nine management units (section 11.2, code table "unit"). -/
inductive MgmtUnit
  | part | station | contour | plan | kerf | gap | sense | notice | store
  deriving DecidableEq, Repr

/-- The three sense lines of a station (R173). -/
inductive Line
  | breakLine | catchLine | guardLine
  deriving DecidableEq, Repr

/-- The sampled level of a sense line (R173). -/
inductive Level
  | low | high
  deriving DecidableEq, Repr

end Sys2Proof.Machine

namespace Sys2Proof

open Sys2Proof.Machine

/-- The commands and events of the part, in the order of spec/opcode_table.json. -/
inductive Instr
  /-- PART_RESET (R80): power-on, or the reset pin asserted. -/
  | partReset
  /-- PATH_FRAME (R39): a PATH frame that passed the frame check. -/
  | pathFrame (f : PathFrame)
  /-- MGMT_FRAME (R178): a MGMT frame that passed the frame check. -/
  | mgmtFrame (f : MgmtFrame)
  /-- LINK_ERROR (R177): the bytes between two delimiters, from the length byte to the check. -/
  | linkError (bytes : List Byte)
  /-- UNKNOWN_UNIT_REQUEST (R179): the link dispatch takes its oldest buffered frame. -/
  | unknownUnitRequest
  /-- SUMMARY (R109): the PART unit takes the request. -/
  | summary
  /-- TIME_SET (R187). -/
  | timeSet
  /-- TIME_READ (R187). -/
  | timeRead
  /-- BEGIN_PROGRAM (R36): the STATION unit takes the request. -/
  | beginProgram
  /-- HOLD (R150). -/
  | hold
  /-- RESUME (R151). -/
  | resume
  /-- CONFIRM, the station request (R152). -/
  | confirm
  /-- SKIP_CONTOUR (R155). -/
  | skipContour
  /-- RETRY (R156). -/
  | retry
  /-- ABORT (R157). -/
  | abort
  /-- STATUS (R79). -/
  | status
  /-- SET_STATION (R111). -/
  | setStation
  /-- DEFINE_CONTOUR (R13): the CONTOUR unit takes the request. -/
  | defineContour
  /-- DELETE_CONTOUR (R14). -/
  | deleteContour
  /-- READ_CONTOUR (R15). -/
  | readContour
  /-- SET_PLAN (R23): the PLAN unit takes the request. -/
  | setPlan
  /-- READ_PLAN (R31). -/
  | readPlan
  /-- KERF_STATUS (R93): the KERF unit takes the request. -/
  | kerfStatus
  /-- GAP_CONFIG (R169): the GAP unit takes the request. -/
  | gapConfig
  /-- GAP_SINGLE (R170). -/
  | gapSingle
  /-- GAP_READ (R171). -/
  | gapRead
  /-- GAP_CLEAR (R171). -/
  | gapClear
  /-- GAP_RESET_EXTREMES (R171). -/
  | gapResetExtremes
  /-- SENSE_CONFIG (R174): the SENSE unit takes the request. -/
  | senseConfig
  /-- SENSE_READ (R175). -/
  | senseRead
  /-- NOTICE_ENABLE (R186): the NOTICE unit takes the request. -/
  | noticeEnable
  /-- NOTICE_READ (R186). -/
  | noticeRead
  /-- NOTICE_CLEAR (R186). -/
  | noticeClear
  /-- STORE_READ (R188): the STORE unit takes the request. -/
  | storeRead
  /-- STORE_WRITE (R189). -/
  | storeWrite
  /-- STORE_WRITE_DONE (R189): the write in progress ends. -/
  | storeWriteDone
  /-- CONVERSION_END (R164): the conversion in progress ends with this raw code. -/
  | conversionEnd (raw : BitVec 12)
  /-- BREAK_EDGE (R113): the station's BREAK line goes to its active level. -/
  | breakEdge (st : St)
  /-- CATCH_EDGE (R148): the station's CATCH line goes to its active level. -/
  | catchEdge (st : St)
  /-- GUARD_EDGE (R147): the station's GUARD line goes to its active level. -/
  | guardEdge (st : St)
  /-- SENSE_LEVEL_CHANGE (R173): the pin of a sense line now carries this level. -/
  | senseLevelChange (st : St) (line : Line) (level : Level)
  /-- DONE (R68): the drive's completion report of a MOVE or DWELL. -/
  | done (st : St) (issue : Byte)
  /-- STOPPED (R60): the drive's answer to a STOP, naming an operation or none, with progress in µm. -/
  | stopped (st : St) (issue : Option Byte) (progress : BitVec 24)
  /-- FAULT (R62): the drive stopped of its own accord. -/
  | fault (st : St) (issue : Byte) (progress : BitVec 24) (code : Byte)
  /-- CUT (R59): the drive's answer to WIRE_CUT. -/
  | cut (st : St)
  /-- PROBE (R98): a probe of the threading head, with its result byte. -/
  | probe (st : St) (result : Byte)
  /-- PROBE_END (R99): the threading head's feed is spent. -/
  | probeEnd (st : St)
  /-- THREADED (R103): the drive's answer to CONFIRM. -/
  | threaded (st : St)
  /-- ABANDONED (R100): the drive's answer to ABANDON. -/
  | abandoned (st : St)
  /-- PORT_LINK_DOWN (R193): the port's link goes DOWN (no message), or these message bytes arrive. -/
  | portLinkDown (st : St) (message : Option (List Byte))
  /-- CATCH_WAIT_EXPIRY (R73): the station's catch wait falls due. -/
  | catchWaitExpiry (st : St)
  /-- UPSTREAM_FRAME_SENT (R183): the upstream lane has finished its frame. -/
  | upstreamFrameSent
  /-- UNKNOWN_REQUEST (R179): a unit takes a frame whose request code names none of its requests. -/
  | unknownRequest (unit : MgmtUnit)
  deriving DecidableEq, Repr

end Sys2Proof
end

