-- ==== Sys2Proof/Decode.lean ====
section
/-! DEFINITION. The reading of opcode-table words. No row of spec/opcode_table.json gives bits ("fields" is empty in
every row), so no word spells a command. The bytes of frames and messages are read in Machine/Operands.lean. -/

namespace Sys2Proof

/-- The command that a word spells by the table's bits: none, because no row gives bits. -/
def decodeTableWord (_nbits _w : Nat) : Option Instr := none

end Sys2Proof
end

