-- ==== Sys2Proof/Machine/State.lean ====
section
/-! DEFINITION. The state of the part: every table, queue, record, flag and counter that the manual gives its
blocks, the reasons a step can stop, and the machine right after PART RESET. Plain data throughout. -/

namespace Sys2Proof.Machine

/-- Four like things, one per station. -/
structure PerStation (α : Type) where
  s0 : α
  s1 : α
  s2 : α
  s3 : α
  deriving DecidableEq, Repr

/-! ## Named values (code tables, 12.6) -/

/-- Station state (R53). -/
inductive StationState
  | idle | active | held | aborting
  deriving DecidableEq, Repr

/-- Activity (R54). -/
inductive Activity
  | waiting | entering | waitKerf | threading | cutting | tailIntake | closing | recovering | tabPass | dwelling
  | travelling
  deriving DecidableEq, Repr

/-- Wire state (R55). -/
inductive Wire
  | unknown | unthreaded | threaded | broken
  deriving DecidableEq, Repr

/-- Wire place (R114); `nowhere` is the manual's NONE. -/
inductive WirePlace
  | nowhere | startHole | inCut | inTraverse
  deriving DecidableEq, Repr

/-- The nine hold reasons (R144). -/
inductive HoldReason
  | request | guard | straySlug | slug | gap | driveFault | noCatch | partRemoval | contourFailed
  deriving DecidableEq, Repr

/-- A hold reason set (R144): for each reason, whether it is in the set. -/
structure Holds where
  request       : Bool := false
  guard         : Bool := false
  straySlug     : Bool := false
  slug          : Bool := false
  gap           : Bool := false
  driveFault    : Bool := false
  noCatch       : Bool := false
  partRemoval   : Bool := false
  contourFailed : Bool := false
  deriving DecidableEq, Repr

/-- The seven kinds of path frame (R34). -/
inductive PathKind
  | cutLine | arcCw | arcCcw | travel | dwell | tabs | endProgram
  deriving DecidableEq, Repr

/-- Direction of a MOVE (R58), and the approach of a tab pass (R18). -/
inductive Direction
  | forward | reverse
  deriving DecidableEq, Repr

/-- Outcome and failure causes (R6); `success` is the manual's NONE. -/
inductive Cause
  | success | threadAttempts | adjLimit | lockout | breakLimit | aborted | skippedByRequest
  deriving DecidableEq, Repr

/-- Failure policy of a contour (R1). -/
inductive Policy
  | skip | halt
  deriving DecidableEq, Repr

/-- Separation confirm, and the confirmation a closing requires (R18, R72); `plain` is the manual's NONE. -/
inductive Confirm
  | plain | catcher | pause
  deriving DecidableEq, Repr

/-- The states of a contour record that is not FREE (R7). A FREE record is one the table does not hold. -/
inductive ContourState
  | defined | queued | entering | cutting | tailIntake | deferred | tabCutting | closing | complete | failed | aborted
  deriving DecidableEq, Repr

/-- Relock policy (R110). -/
inductive Relock
  | retry | fail
  deriving DecidableEq, Repr

/-- Kind of a threading episode (R95); also the path of a recovery (R120). -/
inductive EpisodeKind
  | startHole | inKerf
  deriving DecidableEq, Repr

/-- How a threading episode ended (R107). -/
inductive ThreadOutcome
  | threaded | threadAttempts | adjLimit | lockout | aborted
  deriving DecidableEq, Repr

/-- The pass a contour is in (R120). -/
inductive Pass
  | main | tail
  deriving DecidableEq, Repr

/-- Cause of a teardown (R157). -/
inductive TeardownCause
  | request | driveLost
  deriving DecidableEq, Repr

/-- Outcome of a MARK report (R48). -/
inductive MarkOutcome
  | done | discarded
  deriving DecidableEq, Repr

/-- Why admission refused a frame (R39). -/
inductive RefusalReason
  | noProgram | aborting | closed | stale | seq | badField | full | markBusy | undefined | chain
  deriving DecidableEq, Repr

/-- Reply status (R180). -/
inductive ReplyStatus
  | ok | busy | locked | state | undefined | range | badReq
  deriving DecidableEq, Repr

/-- Authority of a management request (00_scope.md, "Authority"). -/
inductive Authority
  | planner | service
  deriving DecidableEq, Repr

/-- The requests that can clear a station's last hold reason (R146). -/
inductive Clearing
  | resume | confirm | skipContour | retry
  deriving DecidableEq, Repr

/-! ## The Contour Table, the Retention Plan Table and the kerf record -/

/-- What a frame says of its segment or travel, copied unchanged into the drive operation (R34, R58, R82). A frame
without an end point (DWELL, TABS, END_PROGRAM) has zeros there. -/
structure Segment where
  kind   : PathKind
  length : Nat
  endX   : Coord
  endY   : Coord
  centre : Option (Coord × Coord)
  taper  : Option (Coord × Coord)
  feed   : Nat
  deriving DecidableEq, Repr

/-- The state of a kerf entry (R83); the first three are of class MAIN, the last three of class TAIL. -/
inductive KerfState
  | pending | issued | cut | tail | tailIssued | tailCut
  deriving DecidableEq, Repr

/-- A kerf entry (R82). Its contour is the record that holds it, and its class is that of its state. -/
structure KerfEntry where
  ordinal   : Nat
  seg       : Segment
  seq       : Seq
  handle    : Option (Fin 8)
  state     : KerfState
  progress  : Nat
  direction : Option Direction
  deriving DecidableEq, Repr

/-- The nine configuration fields of a contour (R1). -/
structure ContourConfig where
  station      : St
  threadX      : Coord
  threadY      : Coord
  segments     : Nat
  leadIn       : Nat
  inKerf       : Bool
  breakLimit   : Nat
  attemptLimit : Nat
  policy       : Policy
  deriving DecidableEq, Repr

/-- Mode of a retention plan with the fields only TAB has (R18); `plain` is the manual's NONE. -/
inductive PlanMode
  | plain | catcher | pause
  | tab (t : Nat) (approach : Direction) (confirm : Confirm)
  deriving DecidableEq, Repr

/-- A retention plan (R18): its mode, and its catch timeout in tenths of a second. -/
structure Plan where
  mode    : PlanMode
  timeout : Nat
  deriving DecidableEq, Repr

/-- The progress fields of a contour (R1). -/
structure Progress where
  arrived        : Nat
  cursor         : Nat
  breaks         : Nat
  offset         : Int
  reservation    : Nat
  pendingFailure : Option Cause
  outcome        : Option Cause
  deriving DecidableEq, Repr

/-- A contour record that is not FREE (R1), with its retention plan (R19: one per such record), whether its main
pass has ended (R26), and its kerf record in the order of ordinals (R85). -/
structure Contour where
  state     : ContourState
  cfg       : ContourConfig
  prog      : Progress
  plan      : Plan
  mainEnded : Bool
  kerf      : List KerfEntry
  deriving DecidableEq, Repr

/-- A station's record in the waiting set of the Kerf Record Store (R89). -/
structure Waiting where
  contour : Nat
  need    : Nat
  deriving DecidableEq, Repr

/-- The pool of the Kerf Record Store: its free unreserved slots (R81), waiting set (R89) and last granted (R90).
Reserved and allocated slots are counted from the contour records. -/
structure Pool where
  free        : Nat
  waiting     : PerStation (Option Waiting)
  lastGranted : St
  deriving DecidableEq, Repr

/-! ## Path Admission -/

/-- One entry of an inbound queue: an accepted frame (R45). -/
structure QEntry where
  seq     : Seq
  first   : Bool
  last    : Bool
  handle  : Option (Fin 8)
  contour : Nat
  ordinal : Nat
  seg     : Segment
  deriving DecidableEq, Repr

/-- What admission holds of a program that is OPEN or CLOSED (R33); absent while the program is NONE. -/
structure Program where
  tag      : Byte
  first    : Seq
  expected : Seq
  consumed : Seq
  closed   : Bool
  deriving DecidableEq, Repr

/-- A Path Admission block (R33). Bit n of `handles` is set while mark handle n is HELD. -/
structure Admission where
  program      : Option Program
  openContour  : Option Nat
  queue        : List QEntry
  handles      : BitVec 8
  lastAssigned : Fin 8
  deriving DecidableEq, Repr

/-! ## The Threading Controller -/

/-- State of a Threading Controller: the operation it has outstanding (R95). -/
inductive ThreaderState
  | idle | feeding | locked | abandoning
  deriving DecidableEq, Repr

/-- The last SHORT or LONG probe of an attempt (R95). -/
inductive Miss
  | short | long
  deriving DecidableEq, Repr

/-- What an ABANDON is for (R95). -/
inductive AbandonReason
  | miss | broken | lockout | clearance
  deriving DecidableEq, Repr

/-- The episode record (R95). -/
structure Episode where
  kind           : EpisodeKind
  contour        : Nat
  attemptLimit   : Nat
  lockCount      : Nat
  offsetBound    : Nat
  relock         : Relock
  attempts       : Nat
  offset         : Int
  lockRun        : Nat
  lastMiss       : Option Miss
  broken         : Bool
  lockoutPending : Bool
  reason         : Option AbandonReason
  clearanceDue   : Bool
  deriving DecidableEq, Repr

/-- The five station parameters (R110). -/
structure Params where
  lockCount   : Nat
  offsetBound : Nat
  inKerfLimit : Nat
  relock      : Relock
  gapHold     : Bool
  deriving DecidableEq, Repr

/-- A Threading Controller: state, episode record, summary flags (R95, R109) and station parameters with the staged
set (R110, R111). -/
structure Threader where
  state   : ThreaderState
  episode : Option Episode
  ok      : Bool
  fail    : Bool
  params  : Params
  staged  : Option Params
  deriving DecidableEq, Repr

/-! ## The Station Sequencer -/

/-- A mark still owed: its handle, its frame's sequence and its contour, 0 for a directive (R48). -/
structure MarkRef where
  handle  : Fin 8
  seq     : Seq
  contour : Nat
  deriving DecidableEq, Repr

/-- MOVE mode (R58). -/
inductive MoveMode
  | cut | kerf | travel
  deriving DecidableEq, Repr

/-- What a MOVE runs: a main-pass entry, a tail entry or a traverse of an entry, by contour and ordinal (R57); or
the travel of an entry, of a tab pass, of a recovery, or of a TRAVEL directive with its mark (R66, R133, R124, R75). -/
inductive MoveWork
  | mainEntry (contour ordinal : Nat)
  | tailEntry (contour ordinal : Nat)
  | traverse (contour ordinal : Nat)
  | entryTravel
  | passTravel
  | recoveryTravel
  | directive (mark : Option MarkRef)
  deriving DecidableEq, Repr

/-- What a WIRE_CUT was issued for (R66, R69, R72, R121, R75, R153, R133, R158). -/
inductive CutPurpose
  | entry | mainEnd | closing | recovery | directive | failure | pass | teardown
  deriving DecidableEq, Repr

/-- A drive operation without its issue number (R58). -/
inductive OpBody
  | move (mode : MoveMode) (direction : Direction) (entryOffset : Nat) (seg : Segment) (work : MoveWork)
  | thread (offset : Int)
  | confirm
  | abandon
  | wireCut (purpose : CutPurpose)
  | dwell (ms : Nat) (mark : Option MarkRef)
  deriving DecidableEq, Repr

/-- An outstanding operation of the issue pair (R57). -/
structure Op where
  issue : Byte
  body  : OpBody
  deriving DecidableEq, Repr

/-- A returned operation with its progress (R61). -/
structure Returned where
  body     : OpBody
  progress : Nat
  deriving DecidableEq, Repr

/-- The closing record (R72). -/
structure Closing where
  cutReceived : Bool
  required    : Confirm
  satisfied   : Bool
  deriving DecidableEq, Repr

/-- How far a recovery has gone (R120). -/
inductive RecoveryStep
  | due | wireCut | inKerf | travel | startHole | traverse
  deriving DecidableEq, Repr

/-- The recovery record (R120). -/
structure Recovery where
  contour : Nat
  pass    : Pass
  place   : WirePlace
  path    : Option EpisodeKind
  step    : RecoveryStep
  next    : Option Nat
  deriving DecidableEq, Repr

/-- What started a tab pass (R131). -/
inductive PassTrigger
  | tabs | endProgram | forced
  deriving DecidableEq, Repr

/-- Step of a pass contour (R133 to R137). -/
inductive PassStep
  | travel | threading | approach | closing
  deriving DecidableEq, Repr

/-- The per-contour fields of a pass record (R133), with approach next (R135). -/
structure PassWork where
  contour  : Nat
  t        : Nat
  approach : Direction
  step     : PassStep
  next     : Nat
  deriving DecidableEq, Repr

/-- The pass record (R131). -/
structure PassRecord where
  trigger : PassTrigger
  work    : Option PassWork
  deriving DecidableEq, Repr

/-! ## Reports -/

/-- The fields of a report before its time stamp (12.4). `present` tells whether a PROGRESS report is of the
station's present program (R46). -/
inductive ReportBody
  | refusal (seq : Seq) (reason : RefusalReason) (expected : Option Seq) (credits : Nat)
  | progress (tag : Byte) (consumed : Seq) (credits : Nat) (present : Bool)
  | mark (handle : Fin 8) (seq : Seq) (contour : Nat) (outcome : MarkOutcome)
  | thread (kind : EpisodeKind) (contour : Nat) (outcome : ThreadOutcome) (attempts : Nat) (offset : Int)
  | wireBreak (contour : Nat) (pass : Pass) (place : WirePlace) (position boundary : Nat × Nat) (count : Nat)
      (exceeded : Bool)
  | held (added all : Holds) (activity : Activity) (contour : Option Nat) (code : Option Byte) (cause : Option Cause)
  | resumed (by_ : Clearing) (activity : Activity) (contour : Option Nat)
  | underrun (contour ordinal : Nat) (consumed : Seq)
  | kerfWait (contour need : Nat)
  | contourEnd (contour : Nat) (state : ContourState) (cause : Cause) (arrived cursor breaks : Nat) (offset : Int)
  | programEnd (tag : Byte) (seq : Seq) (completed failed : Nat)
  | teardown (tag : Byte) (firstDiscarded : Option Seq) (discarded aborted uncutTab : Nat) (cause : TeardownCause)
      (wire : Wire)
  deriving DecidableEq, Repr

/-- A report with the time stamp taken when it was built (R187). -/
structure Report where
  body  : ReportBody
  stamp : Time
  deriving DecidableEq, Repr

/-- The reservation request of an entry whose forced-tab-pass check called for no pass (R65): none is still to be made, it
is held until the next event, or it is due. The model's own, for the moment between the check and the request in which
R65 and R89 let another station take the slots (log entry 33). -/
inductive KerfRequest
  | none | held | due
  deriving DecidableEq, Repr

/-- One station's state: its admission (R33), threading controller (R95), sequencer (R52, R114, R120, R131), station
port link status (R193) and report queue (R182). Fields the manual only implies: `breakPending` (a charged break
whose STOP's answer has not arrived, R115), `failureCutDue` (the wire cut a failure calls for, R153),
`directiveMarks` (marked directives that have left the queue, R159), `endProgram` (the sequence of an END_PROGRAM
that has left the queue, R77), `teardown` (the teardown in progress and its cause, R157) and `kerfRequest` (a reservation
request that the entry of the current contour has still to make, R65). -/
structure Station where
  adm              : Admission
  tc               : Threader
  state            : StationState
  activity         : Activity
  wire             : Wire
  wirePlace        : WirePlace
  holds            : Holds
  current          : Option Nat
  pair             : List Op
  nextIssue        : Byte
  stopAwaited      : Bool
  returned         : List Returned
  underrunReported : Bool
  closing          : Option Closing
  catchWait        : Option Time
  deferred         : List Nat
  completed        : Nat
  failed           : Nat
  lost             : Nat
  recovery         : Option Recovery
  pass             : Option PassRecord
  breakPending     : Bool
  failureCutDue    : Bool
  directiveMarks   : List MarkRef
  endProgram       : Option Seq
  teardown         : Option TeardownCause
  linkUp           : Bool
  reports          : List Report
  kerfRequest      : KerfRequest
  deriving DecidableEq, Repr

/-- The Notice Unit: 16 flags, 16 enables, one pending notice (R184, R185). -/
structure Notices where
  flags   : BitVec 16
  enables : BitVec 16
  pending : Bool
  deriving DecidableEq, Repr

/-- The part of the machine that the work of the stations reaches: time base (R187), Notice Unit, Contour Table by
ID (R1), pool of the Kerf Record Store (R81) and the four stations. `freeCount` is the model's own: it numbers the draws of
free values (log entries 1 and 33). -/
structure Works where
  time      : Time
  notices   : Notices
  contours  : List (Nat × Contour)
  pool      : Pool
  stations  : PerStation Station
  freeCount : Nat
  deriving DecidableEq, Repr

/-! ## Gap Monitor, sense lines, calibration store -/

/-- Gap mode (R165). -/
inductive GapMode
  | off | single | continuous | continuousHold
  deriving DecidableEq, Repr

/-- An input of the converter (R162). -/
inductive GapInput
  | station (st : St)
  | reference
  deriving DecidableEq, Repr

/-- The conversion in progress: its input, and whether it is flagged SINGLE rather than SCAN (R162). -/
structure Conversion where
  input  : GapInput
  single : Bool
  deriving DecidableEq, Repr

/-- Configuration of a station channel (R165). -/
structure GapConfig where
  mode      : GapMode
  window    : Nat
  threshold : Nat
  ratio     : Nat
  gain      : Nat
  deriving DecidableEq, Repr

/-- A station channel of the Gap Monitor (R165); `latest` holds raw and corrected codes. -/
structure GapChannel where
  cfg       : GapConfig
  count     : Nat
  shorts    : Nat
  latest    : Option (Nat × Nat)
  lastRatio : Option Nat
  maximum   : Nat
  minimum   : Nat
  alarm     : Bool
  deriving DecidableEq, Repr

/-- A GAP_SINGLE outstanding: its transaction number and its station (R162, R170). -/
structure GapSingle where
  tn : Byte
  st : St
  deriving DecidableEq, Repr

/-- The Gap Monitor: converter (R162) and station channels (R165). -/
structure GapMonitor where
  inProgress    : Conversion
  scan          : GapInput
  pendingSingle : Option St
  outstanding   : Option GapSingle
  offset        : Nat
  channels      : PerStation GapChannel
  deriving DecidableEq, Repr

/-- The active edge of a sense line (R173). -/
inductive Edge
  | rising | falling
  deriving DecidableEq, Repr

/-- A sense line (R173). -/
structure SenseLine where
  enable : Bool
  edge   : Edge
  level  : Level
  deriving DecidableEq, Repr

/-- The three sense lines of a station (R173). -/
structure Lines where
  breakLine : SenseLine
  catchLine : SenseLine
  guardLine : SenseLine
  deriving DecidableEq, Repr

/-- A STORE_WRITE outstanding: its transaction number and the gains being written (R189). -/
structure StoreWrite where
  tn    : Byte
  gains : PerStation Nat
  deriving DecidableEq, Repr

/-- The calibration store (R188): four gains, whether the check word matches them, and the write in progress. -/
structure CalStore where
  gains   : PerStation Nat
  valid   : Bool
  writing : Option StoreWrite
  deriving DecidableEq, Repr

/-! ## Replies and the upstream lane -/

/-- The STATUS reply's values (R79, 12.3). -/
structure StatusView where
  state       : StationState
  activity    : Activity
  wire        : Wire
  holds       : Holds
  current     : Option Nat
  pair        : List Op
  stopAwaited : Bool
  returned    : Nat
  closing     : Option Closing
  catchTenths : Nat
  deferred    : List Nat
  completed   : Nat
  failed      : Nat
  lost        : Nat
  program     : Option Program
  credits     : Nat
  handles     : BitVec 8
  deriving DecidableEq, Repr

/-- One station's line of a SUMMARY reply (R109). -/
structure SummaryLine where
  ok    : Bool
  fail  : Bool
  state : StationState
  deriving DecidableEq, Repr

/-- One station's slot counts in a KERF_STATUS reply (R93). -/
structure KerfCount where
  unallocated : Nat
  allocated   : Nat
  contours    : Nat
  deriving DecidableEq, Repr

/-- What a SET_PLAN or READ_PLAN reply shows (R29, R31). -/
structure PlanView where
  state : ContourState
  plan  : Plan
  h     : Nat
  ended : Bool
  deriving DecidableEq, Repr

/-- The results of a reply, after its status (12.3). -/
inductive ReplyData
  | empty
  | summary (stations : PerStation SummaryLine) (linkErrors : Nat)
  | time (value : Time)
  | opened (tag : Byte) (expected : Seq) (credits : Nat)
  | station (state : StationState) (holds : Holds)
  | skipped (state : StationState) (holds : Holds) (contour : Nat) (cause : Cause)
  | stationStatus (view : StatusView)
  | params (inForce : Params) (staged : Option Params)
  | contourId (id : Nat)
  | contourState (id : Nat) (state : Option ContourState)
  | contour (id : Nat) (state : ContourState) (cfg : ContourConfig) (prog : Progress)
  | plan (id : Nat) (view : PlanView)
  | planRead (view : PlanView)
  | kerf (free : Nat) (counts : PerStation KerfCount) (waiting : PerStation (Option Waiting)) (lastGranted : St)
  | gapConfig (cfg : GapConfig)
  | gapSingle (st : St) (corrected raw offset : Nat)
  | gapChannel (channel : GapChannel) (offset : Nat)
  | alarm (alarm : Bool)
  | line (line : SenseLine)
  | lines (lines : PerStation Lines)
  | noticeEnables (enables flags : BitVec 16)
  | notices (flags enables : BitVec 16) (pending : Bool)
  | noticeFlags (flags : BitVec 16)
  | storeRead (gains : PerStation Nat) (valid : Bool)
  | storeWritten (gains : PerStation Nat)
  deriving DecidableEq, Repr

/-- A management reply: the transaction number, unit and request it echoes, its status and results (R180, 12.3). -/
structure Reply where
  tn      : Byte
  unit    : Byte
  request : Byte
  status  : ReplyStatus
  data    : ReplyData
  deriving DecidableEq, Repr

/-- A frame on the upstream lane (R183). -/
inductive UpFrame
  | reply (r : Reply)
  | report (st : St) (r : Report)
  | notice (mask : BitVec 16) (stamp : Time)
  deriving DecidableEq, Repr

/-! ## The machine -/

/-- The state of the part. `pending` is the queue of commands that wait; `mgmt` the management buffer (R178);
`replies` the built replies of the reply queue (R180: the places reserved are those of an outstanding GAP_SINGLE and
STORE_WRITE); `lane` the frame being sent, absent while the lane is free; `lastServed` the last station served
(R183). -/
structure State where
  pending    : List Instr
  mgmt       : List MgmtFrame
  replies    : List Reply
  lane       : Option UpFrame
  lastServed : St
  linkErrors : Nat
  works      : Works
  gap        : GapMonitor
  lines      : PerStation Lines
  store      : CalStore
  deriving DecidableEq, Repr

/-- Reasons a step can stop with a fault: none. The manual gives every command an effect in every state, so no
command of this part faults, and this type has no constructor. -/
inductive Fault
  deriving DecidableEq, Repr

/-- Reasons a step can be refused. -/
inductive Refusal
  /-- Raised by an arm of `exec` for a command that has no meaning yet, by its mnemonic; safe. No arm raises it. -/
  | notModelled (mnemonic : String)
  deriving DecidableEq, Repr

/-! ## PART RESET -/

/-- A station after PART RESET (R51, R80, R95, R110, R114, R120, R131, R191, R193). -/
def Station.reset : Station where
  adm := { program := none, openContour := none, queue := [], handles := 0, lastAssigned := 7 }
  tc := { state := .idle, episode := none, ok := false, fail := false, staged := none
          params := { lockCount := 4, offsetBound := 5, inKerfLimit := 2, relock := .retry, gapHold := false } }
  state := .idle
  activity := .waiting
  wire := .unknown
  wirePlace := .nowhere
  holds := {}
  current := none
  pair := []
  nextIssue := 0
  stopAwaited := false
  returned := []
  underrunReported := false
  closing := none
  catchWait := none
  deferred := []
  completed := 0
  failed := 0
  lost := 0
  recovery := none
  pass := none
  breakPending := false
  failureCutDue := false
  directiveMarks := []
  endProgram := none
  teardown := none
  linkUp := true
  reports := []
  kerfRequest := .none

/-- A station channel of the Gap Monitor after PART RESET, with the gain it takes (R165, R188). -/
def GapChannel.reset (gain : Nat) : GapChannel where
  cfg := { mode := .off, window := 64, threshold := 400, ratio := 30, gain := gain }
  count := 0
  shorts := 0
  latest := none
  lastRatio := none
  maximum := 0
  minimum := 100
  alarm := false

/-- The four gains the channels take at PART RESET: the store's, or 4095 each when it is invalid (R188). -/
def CalStore.resetGains (c : CalStore) : PerStation Nat :=
  if c.valid then c.gains else ⟨Config.fullGain, Config.fullGain, Config.fullGain, Config.fullGain⟩

/-- A sense line after PART RESET: OFF, RISING, at whatever level the pin carries (R173). -/
def SenseLine.reset (l : SenseLine) : SenseLine := { enable := false, edge := .rising, level := l.level }

/-- A station's sense lines after PART RESET (R173). -/
def Lines.reset (l : Lines) : Lines := ⟨l.breakLine.reset, l.catchLine.reset, l.guardLine.reset⟩

/-- The machine after a PART RESET that finds this calibration store and these pin levels (R17, R51, R80, R94, R95,
R162, R165, R173, R184, R185, R187, R188, R191). The conversion in progress is the reference, and choosing it has
left the scan position at station 0 (R162, R163). -/
def State.afterReset (pending : List Instr) (lines : PerStation Lines) (store : CalStore) (freeCount : Nat) : State where
  pending := pending
  mgmt := []
  replies := []
  lane := none
  lastServed := 3
  linkErrors := 0
  works :=
    { time := 0
      notices := { flags := if store.valid then 0x0000 else 0x8000, enables := 0xFFFF, pending := !store.valid }
      contours := []
      pool := { free := Config.kerfSlots, waiting := ⟨none, none, none, none⟩, lastGranted := 3 }
      stations := ⟨Station.reset, Station.reset, Station.reset, Station.reset⟩
      freeCount := freeCount }
  gap :=
    { inProgress := { input := .reference, single := false }
      scan := .station 0
      pendingSingle := none
      outstanding := none
      offset := 0
      channels := ⟨GapChannel.reset store.resetGains.s0, GapChannel.reset store.resetGains.s1,
        GapChannel.reset store.resetGains.s2, GapChannel.reset store.resetGains.s3⟩ }
  lines := ⟨lines.s0.reset, lines.s1.reset, lines.s2.reset, lines.s3.reset⟩
  store := { store with writing := none }

/-- The calibration store the first PART RESET finds: valid, with every gain 4095. DESIGN CHOICE (log entry 3). -/
def CalStore.first : CalStore where
  gains := ⟨Config.fullGain, Config.fullGain, Config.fullGain, Config.fullGain⟩
  valid := true
  writing := none

/-- A sense line whose pin is LOW at the first PART RESET. DESIGN CHOICE (log entry 4). -/
def SenseLine.first : SenseLine := { enable := false, edge := .rising, level := .low }

/-- The three lines of a station at the first PART RESET. DESIGN CHOICE (log entry 4). -/
def Lines.first : Lines := ⟨SenseLine.first, SenseLine.first, SenseLine.first⟩

/-- The machine right after its first PART RESET, with no command waiting. -/
def State.reset : State :=
  State.afterReset [] ⟨Lines.first, Lines.first, Lines.first, Lines.first⟩ CalStore.first 0

end Sys2Proof.Machine
end

