-- ==== Sys2Proof/Machine/Ops.lean ====
section
/-! DEFINITION. The named operations over tables, stations, flags, reports and marks that every meaning uses. -/

namespace Sys2Proof.Machine

/-! ## Per-station values -/

/-- The value of station `i`. -/
def PerStation.get {α : Type} (p : PerStation α) (i : St) : α :=
  match i with
  | 0 => p.s0
  | 1 => p.s1
  | 2 => p.s2
  | 3 => p.s3

/-- `p` with station `i`'s value changed by `f`. -/
def PerStation.modify {α : Type} (p : PerStation α) (i : St) (f : α → α) : PerStation α :=
  match i with
  | 0 => { p with s0 := f p.s0 }
  | 1 => { p with s1 := f p.s1 }
  | 2 => { p with s2 := f p.s2 }
  | 3 => { p with s3 := f p.s3 }

/-- `p` with station `i`'s value replaced. -/
def PerStation.set {α : Type} (p : PerStation α) (i : St) (a : α) : PerStation α := p.modify i fun _ => a

/-- One value for each station. -/
def PerStation.ofStations {α : Type} (f : St → α) : PerStation α := ⟨f 0, f 1, f 2, f 3⟩

/-- The four values in station order. -/
def PerStation.toList {α : Type} (p : PerStation α) : List α := [p.s0, p.s1, p.s2, p.s3]

/-- The station after `st` in the order 0, 1, 2, 3, 0 (R90, R183). -/
def nextStation (st : St) : St :=
  match st with
  | 0 => 1
  | 1 => 2
  | 2 => 3
  | 3 => 0

/-- The four stations in rotation, beginning with the one after `st` (R90, R183). -/
def rotation (st : St) : List St :=
  [nextStation st, nextStation (nextStation st), nextStation (nextStation (nextStation st)), st]

/-! ## Tables keyed by a number: lists with strictly rising keys -/

/-- The value under key `k`. -/
def tableFind {α : Type} : List (Nat × α) → Nat → Option α
  | [], _ => none
  | (j, a) :: rest, k => if j = k then some a else tableFind rest k

/-- The table with `a` under key `k`, at the place its key gives it. -/
def tablePut {α : Type} : List (Nat × α) → Nat → α → List (Nat × α)
  | [], k, a => [(k, a)]
  | (j, b) :: rest, k, a =>
    if k < j then (k, a) :: (j, b) :: rest
    else if k = j then (k, a) :: rest
    else (j, b) :: tablePut rest k a

/-- The table without key `k`. -/
def tableDrop {α : Type} : List (Nat × α) → Nat → List (Nat × α)
  | [], _ => []
  | (j, b) :: rest, k => if j = k then rest else (j, b) :: tableDrop rest k

/-- The table with the value under key `k`, if any, changed by `f`. -/
def tableModify {α : Type} : List (Nat × α) → Nat → (α → α) → List (Nat × α)
  | [], _, _ => []
  | (j, b) :: rest, k, f => if j = k then (j, f b) :: rest else (j, b) :: tableModify rest k f

/-- The canonical form of a table: keys strictly rising. -/
def tableSorted {α : Type} : List (Nat × α) → Bool
  | [] => true
  | [_] => true
  | (j, _) :: (k, b) :: rest => decide (j < k) && tableSorted ((k, b) :: rest)

/-! ## The works -/

/-- Station `st`. -/
def Works.station (w : Works) (st : St) : Station := w.stations.get st

/-- The works with station `st` changed by `f`. -/
def Works.upd (w : Works) (st : St) (f : Station → Station) : Works := { w with stations := w.stations.modify st f }

/-- The record of contour `id`, absent when it is FREE (R1). -/
def Works.contour? (w : Works) (id : Nat) : Option Contour := tableFind w.contours id

/-- The works with the record of contour `id`, if any, changed by `f`. -/
def Works.modContour (w : Works) (id : Nat) (f : Contour → Contour) : Works :=
  { w with contours := tableModify w.contours id f }

/-- The current contour's ID and record (R56). -/
def Works.current? (w : Works) (st : St) : Option (Nat × Contour) :=
  match (w.station st).current with
  | none => none
  | some id => (w.contour? id).map fun c => (id, c)

/-- A counter raised by one, staying at its limit (R52, R177, R182). -/
def saturate (limit n : Nat) : Nat := if n < limit then n + 1 else limit

/-! ## Contours -/

/-- COMPLETE, FAILED and ABORTED are the terminal states (R7). -/
def ContourState.terminal : ContourState → Bool
  | .complete | .failed | .aborted => true
  | .defined | .queued | .entering | .cutting | .tailIntake | .deferred | .tabCutting | .closing => false

/-- The working states (R7). -/
def ContourState.working : ContourState → Bool
  | .entering | .cutting | .tailIntake | .deferred | .tabCutting | .closing => true
  | .defined | .queued | .complete | .failed | .aborted => false

/-- The contour's record with its state changed. -/
def Contour.setState (c : Contour) (s : ContourState) : Contour := { c with state := s }

/-- Tab ordinal t of a TAB plan (R18). -/
def Plan.tabOrdinal? (p : Plan) : Option Nat :=
  match p.mode with
  | .tab t _ _ => some t
  | .plain | .catcher | .pause => none

/-- The confirmation a closing requires: that of the mode after a main pass (R72), the separation confirm of a TAB plan
after its tab pass (R137). -/
def Plan.confirmRequired (p : Plan) : Confirm :=
  match p.mode with
  | .plain => .plain
  | .catcher => .catcher
  | .pause => .pause
  | .tab _ _ c => c

/-! ## Notice flags (R184, R185) -/

/-- Bit `n` of a 16-bit mask (12.6: bit 0 is the first member of its code table). -/
def bit16 (n : Nat) : BitVec 16 := BitVec.ofNat 16 (2 ^ n)

/-- Bit of STATION_HELD(st). -/
def flagStationHeld (st : St) : Nat := st.val
/-- Bit of GAP_ALARM(st). -/
def flagGapAlarm (st : St) : Nat := 4 + st.val
/-- Bit of CONTOUR_FAILED. -/
def flagContourFailed : Nat := 8
/-- Bit of THREAD_FAILED. -/
def flagThreadFailed : Nat := 9
/-- Bit of WIRE_BREAK. -/
def flagWireBreak : Nat := 10
/-- Bit of KERF_WAIT. -/
def flagKerfWait : Nat := 11
/-- Bit of REPORT_LOSS. -/
def flagReportLoss : Nat := 12
/-- Bit of LINK_ERROR. -/
def flagLinkError : Nat := 13
/-- Bit of STORE_DONE. -/
def flagStoreDone : Nat := 14

/-- Flag `n` is set; if it was clear with its enable ON, a notice becomes pending (R184, R185). -/
def Notices.raise (u : Notices) (n : Nat) : Notices :=
  if u.flags.getLsbD n then u
  else { u with flags := u.flags ||| bit16 n, pending := u.pending || u.enables.getLsbD n }

/-- The works with notice flag `n` raised. -/
def Works.raise (w : Works) (n : Nat) : Works := { w with notices := w.notices.raise n }

/-! ## Reports (R182) -/

/-- Station `st` builds a report: it joins the tail of the report queue with the time stamp of this moment, or is
dropped and counted when the queue holds 32, with REPORT_LOSS set (R182). -/
def Works.report (w : Works) (st : St) (body : ReportBody) : Works :=
  if (w.station st).reports.length < Config.reportQueueSize then
    w.upd st fun x => { x with reports := x.reports ++ [{ body := body, stamp := w.time }] }
  else (w.upd st fun x => { x with lost := saturate Config.lostLimit x.lost }).raise flagReportLoss

/-- The credits of a station: 128 less the occupancy of its inbound queue (R45). -/
def Station.credits (x : Station) : Nat := Config.queueSize - x.adm.queue.length

/-- Whether a report is an unsent PROGRESS of the present program (R46). -/
def Report.isPresentProgress (r : Report) : Bool :=
  match r.body with
  | .progress _ _ _ present => present
  | _ => false

/-- A PROGRESS of the present program brought up to date in place; its time stamp stays that of its building
(R46; log entry 5). -/
def Report.refresh (consumed : Seq) (credits : Nat) (r : Report) : Report :=
  match r.body with
  | .progress tag _ _ true => { r with body := .progress tag consumed credits true }
  | _ => r

/-- The station's PROGRESS report is brought up to date: in place, or as a new report at the tail (R46). -/
def Works.progressUpdate (w : Works) (st : St) : Works :=
  match (w.station st).adm.program with
  | none => w
  | some p =>
    if (w.station st).reports.any Report.isPresentProgress then
      w.upd st fun x => { x with reports := x.reports.map (Report.refresh p.consumed x.credits) }
    else w.report st (.progress p.tag p.consumed (w.station st).credits true)

/-- Consumed through becomes `seq` (R46). -/
def Admission.setConsumed (a : Admission) (seq : Seq) : Admission :=
  { a with program := a.program.map fun p => { p with consumed := seq } }

/-- The entry at the head has left the inbound queue: consumed through moves to it, and PROGRESS follows (R46, R64). -/
def Works.consumeHead (w : Works) (st : St) : Works :=
  match (w.station st).adm.queue with
  | [] => w
  | e :: rest =>
    (w.upd st fun x => { x with adm := { x.adm with queue := rest }.setConsumed e.seq }).progressUpdate st

/-! ## Mark handles (R47, R48) -/

/-- Bit `h` of the handle set. -/
def bit8 (h : Fin 8) : BitVec 8 := BitVec.ofNat 8 (2 ^ h.val)

/-- Handle `h` becomes FREE (R48). -/
def Admission.release (a : Admission) (h : Fin 8) : Admission := { a with handles := a.handles &&& ~~~ (bit8 h) }

/-- A MARK report is built and its handle becomes FREE, even if the report is dropped (R48, R78). -/
def Works.markReport (w : Works) (st : St) (m : MarkRef) (out : MarkOutcome) : Works :=
  (w.report st (.mark m.handle m.seq m.contour out)).upd st fun x => { x with adm := x.adm.release m.handle }

/-- The MARK report of a frame if it was marked (R78). -/
def Works.markReport? (w : Works) (st : St) (m : Option MarkRef) (out : MarkOutcome) : Works :=
  match m with
  | none => w
  | some m => w.markReport st m out

/-- MARK reports for several marks, in order. -/
def Works.markReports (w : Works) (st : St) (ms : List MarkRef) (out : MarkOutcome) : Works :=
  ms.foldl (fun w m => w.markReport st m out) w

/-- The mark of a queue entry, if its frame was marked. -/
def QEntry.mark (e : QEntry) : Option MarkRef :=
  e.handle.map fun h => { handle := h, seq := e.seq, contour := e.contour }

/-- The mark a kerf entry of contour `id` still holds. -/
def KerfEntry.mark (id : Nat) (e : KerfEntry) : Option MarkRef :=
  e.handle.map fun h => { handle := h, seq := e.seq, contour := id }

/-! ## The issue pair (R57) -/

/-- A tool operation is any but a MOVE (glossary, "Tool operation"). -/
def OpBody.isTool : OpBody → Bool
  | .move _ _ _ _ _ => false
  | .thread _ | .confirm | .abandon | .wireCut _ | .dwell _ _ => true

/-- An operation that a STOP stops: a MOVE, DWELL or THREAD (R60). -/
def OpBody.stoppable : OpBody → Bool
  | .move _ _ _ _ _ | .dwell _ _ | .thread _ => true
  | .confirm | .abandon | .wireCut _ => false

/-- A WIRE_CUT. -/
def OpBody.isWireCut : OpBody → Bool
  | .wireCut _ => true
  | .move _ _ _ _ _ | .thread _ | .confirm | .abandon | .dwell _ _ => false

/-- A CUT or KERF move (R115). -/
def OpBody.isCutOrKerf : OpBody → Bool
  | .move .cut _ _ _ _ | .move .kerf _ _ _ _ => true
  | .move .travel _ _ _ _ | .thread _ | .confirm | .abandon | .wireCut _ | .dwell _ _ => false

/-- The pair has room for a MOVE: fewer than two operations and no tool operation (R57). -/
def Station.moveRoom (x : Station) : Bool := x.pair.length < 2 && x.pair.all fun o => !o.body.isTool

/-- The pair has room for this operation: a MOVE beside at most one MOVE, a tool operation into an empty pair (R57). -/
def Station.room (x : Station) (b : OpBody) : Bool := if b.isTool then x.pair.isEmpty else x.moveRoom

/-- An operation joins the pair with the next issue number, which rises by 1; an issue ends an underrun (R57, R67,
R71). -/
def Station.push (x : Station) (b : OpBody) : Station :=
  { x with
    pair := x.pair ++ [{ issue := x.nextIssue, body := b }]
    nextIssue := x.nextIssue + 1
    underrunReported := false }

/-- STOP is sent if a MOVE, DWELL or THREAD is outstanding and no STOP is already awaited (R60). -/
def Station.callStop (x : Station) : Station :=
  if x.pair.any fun o => o.body.stoppable then { x with stopAwaited := true } else x

/-- The wire state changes; away from THREADED the wire place becomes NONE (R55, R114). -/
def Station.setWire (x : Station) (v : Wire) : Station :=
  { x with wire := v, wirePlace := if v = .threaded then x.wirePlace else .nowhere }

/-- The wire place follows the end of a move, while the wire is THREADED or its break is not settled (R114, R115;
log entry 6). -/
def Station.setPlace (x : Station) (p : WirePlace) : Station :=
  if x.wire = .threaded ∨ x.breakPending then { x with wirePlace := p } else x

/-- ACTIVE or HELD. -/
def Station.working (x : Station) : Bool := x.state = .active || x.state = .held

end Sys2Proof.Machine
end

