-- ==== Sys2Proof/Machine/Flags.lean ====
section
/-! DEFINITION. Sets of hold reasons (R144) and the 16-bit masks of the code tables (12.6). -/

namespace Sys2Proof.Machine

/-- The set that holds one reason. -/
def Holds.only : HoldReason → Holds
  | .request => { request := true }
  | .guard => { guard := true }
  | .straySlug => { straySlug := true }
  | .slug => { slug := true }
  | .gap => { gap := true }
  | .driveFault => { driveFault := true }
  | .noCatch => { noCatch := true }
  | .partRemoval => { partRemoval := true }
  | .contourFailed => { contourFailed := true }

/-- Reason by reason. -/
def Holds.zip (f : Bool → Bool → Bool) (a b : Holds) : Holds where
  request := f a.request b.request
  guard := f a.guard b.guard
  straySlug := f a.straySlug b.straySlug
  slug := f a.slug b.slug
  gap := f a.gap b.gap
  driveFault := f a.driveFault b.driveFault
  noCatch := f a.noCatch b.noCatch
  partRemoval := f a.partRemoval b.partRemoval
  contourFailed := f a.contourFailed b.contourFailed

/-- The reasons of either set. -/
def Holds.union (a b : Holds) : Holds := Holds.zip (fun x y => x || y) a b

/-- The reasons of `a` that are not in `b`. -/
def Holds.without (a b : Holds) : Holds := Holds.zip (fun x y => x && !y) a b

/-- The reasons in both sets. -/
def Holds.inter (a b : Holds) : Holds := Holds.zip (fun x y => x && y) a b

/-- The empty set. -/
def Holds.none : Holds := {}

/-- The six reasons RESUME clears (R151). -/
def Holds.resumable : Holds where
  request := true
  guard := true
  straySlug := true
  slug := true
  gap := true
  driveFault := true

/-- The two reasons CONFIRM clears (R152). -/
def Holds.confirmable : Holds where
  noCatch := true
  partRemoval := true

/-- One bit of a mask. -/
def maskBit (b : Bool) (n : Nat) : Nat := if b then 2 ^ n else 0

/-- The mask of a hold reason set (12.6, "hold reason, mask bit"). -/
def Holds.mask (a : Holds) : BitVec 16 :=
  BitVec.ofNat 16
    (maskBit a.request 0 + maskBit a.guard 1 + maskBit a.straySlug 2 + maskBit a.slug 3 + maskBit a.gap 4
      + maskBit a.driveFault 5 + maskBit a.noCatch 6 + maskBit a.partRemoval 7 + maskBit a.contourFailed 8)

end Sys2Proof.Machine
end

