-- ==== Sys2Proof/Machine/Operands.lean ====
section
/-! DEFINITION. Reading what arrives: the frame check, the frames of the cell link and the messages of a station
port from their bytes, the arguments of requests, and the named values of the code tables (chapter 12). -/

namespace Sys2Proof.Machine

/-! ## The frame check (R192) -/

/-- One bit enters the check register (R192). -/
def crcBit (reg : BitVec 16) (bit : Bool) : BitVec 16 :=
  if bit = reg.getLsbD 15 then reg <<< 1 else (reg <<< 1) ^^^ 0x1021

/-- One byte enters the check register, most significant bit first (R192). -/
def crcByte (reg : BitVec 16) (b : Byte) : BitVec 16 :=
  [7, 6, 5, 4, 3, 2, 1, 0].foldl (fun r i => crcBit r (b.getLsbD i)) reg

/-- The frame check of a string of bytes (R192). -/
def frameCheck (bytes : List Byte) : BitVec 16 := bytes.foldl crcByte 0xFFFF

/-- The two bytes of a check, high byte first (R192). -/
def checkBytes (c : BitVec 16) : List Byte := [c.extractLsb' 8 8, c.extractLsb' 0 8]

/-- A frame or message whose length byte counts what lies between it and the check, and whose check matches
(R177, R192, R193). -/
def sound (bytes : List Byte) : Bool :=
  match bytes with
  | [] => false
  | len :: _ =>
    decide (4 ≤ bytes.length) && decide (len.toNat + 3 = bytes.length)
      && decide (bytes.drop (bytes.length - 2) = checkBytes (frameCheck (bytes.take (bytes.length - 2))))

/-- What lies between the length byte and the check: the class or code, and the body or fields. -/
def payload (bytes : List Byte) : List Byte := (bytes.drop 1).take (bytes.length - 3)

/-! ## Bytes to values, high byte first (chapter 12) -/

/-- Byte `i` of a list, 0 past its end. -/
def byteAt (bs : List Byte) (i : Nat) : Byte := bs.getD i 0

/-- The 2-byte value at `i`. -/
def word16At (bs : List Byte) (i : Nat) : BitVec 16 := byteAt bs i ++ byteAt bs (i + 1)

/-- The 3-byte value at `i`. -/
def word24At (bs : List Byte) (i : Nat) : BitVec 24 := word16At bs i ++ byteAt bs (i + 2)

/-- The 4-byte value at `i`. -/
def word32At (bs : List Byte) (i : Nat) : BitVec 32 := word16At bs i ++ word16At bs (i + 2)

/-- A pair of 3-byte coordinates at `i`. -/
def pairAt (bs : List Byte) (i : Nat) : Coord × Coord := (word24At bs i, word24At bs (i + 3))

/-! ## Codes to named values (12.6) -/

/-- A station number, or nothing above 3. -/
def stationOf (b : Byte) : Option St := if h : b.toNat < 4 then some ⟨b.toNat, h⟩ else none

/-- Path kind code. -/
def pathKindOf (b : Byte) : Option PathKind :=
  match b.toNat with
  | 0 => some .cutLine
  | 1 => some .arcCw
  | 2 => some .arcCcw
  | 3 => some .travel
  | 4 => some .dwell
  | 5 => some .tabs
  | 6 => some .endProgram
  | _ => none

/-- Authority code. -/
def authorityOf (b : Byte) : Option Authority :=
  match b.toNat with
  | 0 => some .planner
  | 1 => some .service
  | _ => none

/-- The code of a unit. -/
def MgmtUnit.code : MgmtUnit → Byte
  | .part => 0
  | .station => 1
  | .contour => 2
  | .plan => 3
  | .kerf => 4
  | .gap => 5
  | .sense => 6
  | .notice => 7
  | .store => 8

/-- How many request codes a unit has, counted from 0. -/
def MgmtUnit.requests : MgmtUnit → Nat
  | .part => 3
  | .station => 9
  | .contour => 3
  | .plan => 2
  | .kerf => 1
  | .gap => 5
  | .sense => 2
  | .notice => 3
  | .store => 2

/-- A code of a yes-or-no, OFF-or-ON value. -/
def boolOf (b : Byte) : Option Bool :=
  match b.toNat with
  | 0 => some false
  | 1 => some true
  | _ => none

/-- Failure policy code. -/
def policyOf (b : Byte) : Option Policy :=
  match b.toNat with
  | 0 => some .skip
  | 1 => some .halt
  | _ => none

/-- Relock policy code. -/
def relockOf (b : Byte) : Option Relock :=
  match b.toNat with
  | 0 => some .retry
  | 1 => some .fail
  | _ => none

/-- Approach code. -/
def approachOf (b : Byte) : Option Direction :=
  match b.toNat with
  | 0 => some .forward
  | 1 => some .reverse
  | _ => none

/-- Separation confirm code. -/
def confirmOf (b : Byte) : Option Confirm :=
  match b.toNat with
  | 0 => some .plain
  | 1 => some .catcher
  | 2 => some .pause
  | _ => none

/-- Gap mode code. -/
def gapModeOf (b : Byte) : Option GapMode :=
  match b.toNat with
  | 0 => some .off
  | 1 => some .single
  | 2 => some .continuous
  | 3 => some .continuousHold
  | _ => none

/-- Sense line code. -/
def lineOf (b : Byte) : Option Line :=
  match b.toNat with
  | 0 => some .breakLine
  | 1 => some .catchLine
  | 2 => some .guardLine
  | _ => none

/-- Active edge code. -/
def edgeOf (b : Byte) : Option Edge :=
  match b.toNat with
  | 0 => some .rising
  | 1 => some .falling
  | _ => none

/-- Result of a probe. -/
inductive ProbeResult
  | seated | short | long
  deriving DecidableEq, Repr

/-- Probe result code. -/
def probeResultOf (b : Byte) : Option ProbeResult :=
  match b.toNat with
  | 0 => some .seated
  | 1 => some .short
  | 2 => some .long
  | _ => none

/-! ## Path frames (R34, R35, R40, 12.2) -/

/-- FIRST, LAST, MARK and TAPER are bits 0 to 3 of the flags byte (12.2). -/
def PathFrame.isFirst (f : PathFrame) : Bool := f.flags.getLsbD 0
/-- LAST. -/
def PathFrame.isLast (f : PathFrame) : Bool := f.flags.getLsbD 1
/-- MARK. -/
def PathFrame.isMarked (f : PathFrame) : Bool := f.flags.getLsbD 2
/-- TAPER. -/
def PathFrame.hasTaper (f : PathFrame) : Bool := f.flags.getLsbD 3

/-- The three cut kinds (R34). -/
def PathKind.isCut : PathKind → Bool
  | .cutLine | .arcCw | .arcCcw => true
  | .travel | .dwell | .tabs | .endProgram => false

/-- The arc kinds (R34). -/
def PathKind.isArc : PathKind → Bool
  | .arcCw | .arcCcw => true
  | .cutLine | .travel | .dwell | .tabs | .endProgram => false

/-- A kind whose body carries an end point (R35). -/
def PathKind.hasEnd : PathKind → Bool
  | .cutLine | .arcCw | .arcCcw | .travel => true
  | .dwell | .tabs | .endProgram => false

/-- The bytes a body has after its 13 fixed ones (12.2). -/
def PathKind.restLength (k : PathKind) (taper : Bool) : Nat :=
  (if k.hasEnd then 6 else 0) + (if k.isArc then 6 else 0) + (if taper then 6 else 0)

/-- The range R35 gives a kind's length field. -/
def PathKind.lengthOk (k : PathKind) (n : Nat) : Bool :=
  match k with
  | .cutLine | .arcCw | .arcCcw | .travel => 1 ≤ n && n ≤ 1000000
  | .dwell => 1 ≤ n && n ≤ 65535
  | .tabs | .endProgram => n = 0

/-- The fields of a frame agree with its kind and are in range: the opposite of BADFIELD (R35, R40, R192). -/
def PathFrame.fieldsOk (f : PathFrame) : Bool :=
  match pathKindOf f.kind with
  | none => false
  | some k =>
    f.rest.length = k.restLength f.hasTaper && f.flags.toNat < 16 && k.lengthOk f.length.toNat
      && (if k.isCut then
            f.contour ≠ 0 && 1 ≤ f.ordinal.toNat && f.ordinal.toNat ≤ 4095
              && f.isFirst = decide (f.ordinal.toNat = 1)
          else f.contour = 0 && f.ordinal = 0 && !f.isFirst && !f.isLast)
      && (if k.hasEnd then f.feed.toNat ≤ 15 else f.feed = 0 && !f.hasTaper)

/-- What the frame says of its segment, travel or dwell (R34): the bytes after the fixed ones hold the end point,
the arc centre and the taper, each where the kind and TAPER call for it (12.2). -/
def PathFrame.segment (f : PathFrame) (k : PathKind) : Segment where
  kind := k
  length := f.length.toNat
  endX := if k.hasEnd then word24At f.rest 0 else 0
  endY := if k.hasEnd then word24At f.rest 3 else 0
  centre := if k.isArc then some (pairAt f.rest 6) else none
  taper := if f.hasTaper then some (pairAt f.rest (if k.isArc then 12 else 6)) else none
  feed := f.feed.toNat

/-! ## Downstream frames from their bytes (R177, R178, 12.1 to 12.3) -/

/-- A downstream frame that passed the frame check. -/
inductive DownFrame
  | path (f : PathFrame)
  | mgmt (f : MgmtFrame)
  deriving DecidableEq, Repr

/-- A path body of at least 13 bytes (12.2). -/
def pathOfBody (b : List Byte) : PathFrame where
  station := byteAt b 0
  tag := byteAt b 1
  seq := word16At b 2
  kind := byteAt b 4
  flags := byteAt b 5
  contour := byteAt b 6
  ordinal := word16At b 7
  length := word24At b 9
  feed := byteAt b 12
  rest := b.drop 13

/-- A management body of at least four bytes (12.3). -/
def mgmtOfBody (b : List Byte) : MgmtFrame where
  authority := byteAt b 0
  tn := byteAt b 1
  unit := byteAt b 2
  request := byteAt b 3
  args := b.drop 4

/-- The frame that the bytes between two delimiters form, or nothing when they are a link error (R177): a check or
length byte that does not agree, more than 64 bytes, fewer than the smallest frame of the class, or a class that is
neither PATH (0) nor MGMT (1). -/
def receiveFrame (bytes : List Byte) : Option DownFrame :=
  if sound bytes && decide (bytes.length ≤ 64) then
    match payload bytes with
    | [] => none
    | cls :: body =>
      if cls = 0 then if 13 ≤ body.length then some (.path (pathOfBody body)) else none
      else if cls = 1 then if 4 ≤ body.length then some (.mgmt (mgmtOfBody body)) else none
      else none
  else none

/-! ## Drive messages from their bytes (R193, 12.5) -/

/-- A report of a drive (R59). -/
inductive DriveReport
  | done (issue : Byte)
  | stopped (issue : Option Byte) (progress : BitVec 24)
  | fault (issue : Byte) (progress : BitVec 24) (code : Byte)
  | probe (result : Byte)
  | probeEnd
  | threaded
  | abandoned
  | cut
  deriving DecidableEq, Repr

/-- The drive report that a message's bytes form, or nothing when one of R193's four tests fails: check, length
byte, code, and length for the code. -/
def receiveReport (bytes : List Byte) : Option DriveReport :=
  if sound bytes then
    match payload bytes with
    | [] => none
    | code :: f =>
      match code.toNat, f.length with
      | 8, 1 => some (.done (byteAt f 0))
      | 9, 5 => some (.stopped (if byteAt f 0 = 0 then none else some (byteAt f 1)) (word24At f 2))
      | 10, 5 => some (.fault (byteAt f 0) (word24At f 1) (byteAt f 4))
      | 11, 1 => some (.probe (byteAt f 0))
      | 12, 0 => some .probeEnd
      | 13, 0 => some .threaded
      | 14, 0 => some .abandoned
      | 15, 0 => some .cut
      | _, _ => none
  else none

/-! ## Arguments of requests (12.3) -/

/-- DEFINE_CONTOUR's nine configuration values, checked as R12 gives; nothing when one is out of range. -/
def configOf (a : List Byte) : Option ContourConfig :=
  match stationOf (byteAt a 1), boolOf (byteAt a 11), policyOf (byteAt a 14) with
  | some st, some permit, some policy =>
    let n := (word16At a 8).toNat
    let leadIn := (byteAt a 10).toNat
    let limit := (byteAt a 12).toNat
    let attempts := (byteAt a 13).toNat
    if 2 ≤ n ∧ n ≤ 4095 ∧ 1 ≤ leadIn ∧ leadIn ≤ 15 ∧ leadIn < n ∧ limit ≤ 15 ∧ 1 ≤ attempts ∧ attempts ≤ 15 then
      some
        { station := st, threadX := word24At a 2, threadY := word24At a 5, segments := n, leadIn := leadIn
          inKerf := permit, breakLimit := limit, attemptLimit := attempts, policy := policy }
    else none
  | _, _, _ => none

/-- SET_PLAN's plan (R23): nothing when a code names no value or the catch timeout is 0. In a mode other than TAB
the tab ordinal, approach and separation confirm are disregarded. -/
def planOf (a : List Byte) : Option Plan :=
  let timeout := (byteAt a 6).toNat
  if timeout = 0 then none
  else
    match (byteAt a 1).toNat with
    | 0 => some { mode := .plain, timeout := timeout }
    | 1 => some { mode := .catcher, timeout := timeout }
    | 2 => some { mode := .pause, timeout := timeout }
    | 3 =>
      match approachOf (byteAt a 4), confirmOf (byteAt a 5) with
      | some ap, some cf => some { mode := .tab (word16At a 2).toNat ap cf, timeout := timeout }
      | _, _ => none
    | _ => none

/-- SET_STATION's five parameters (R111), or nothing when one is out of range. -/
def paramsOf (a : List Byte) : Option Params :=
  match relockOf (byteAt a 4), boolOf (byteAt a 5) with
  | some relock, some gapHold =>
    let n := (byteAt a 1).toNat
    let b := (byteAt a 2).toNat
    let k := (byteAt a 3).toNat
    if 1 ≤ n ∧ n ≤ 15 ∧ 1 ≤ b ∧ b ≤ 7 ∧ 1 ≤ k ∧ k ≤ 7 then
      some { lockCount := n, offsetBound := b, inKerfLimit := k, relock := relock, gapHold := gapHold }
    else none
  | _, _ => none

/-- GAP_CONFIG's five values (R169), or nothing when one is out of range. -/
def gapConfigOf (a : List Byte) : Option GapConfig :=
  match gapModeOf (byteAt a 1) with
  | some mode =>
    let w := (word16At a 2).toNat
    let threshold := (word16At a 4).toNat
    let ratio := (byteAt a 6).toNat
    let gain := (word16At a 7).toNat
    if 16 ≤ w ∧ w ≤ 256 ∧ w % 16 = 0 ∧ threshold ≤ 4095 ∧ 1 ≤ ratio ∧ ratio ≤ 100 ∧ gain ≤ 4095 then
      some { mode := mode, window := w, threshold := threshold, ratio := ratio, gain := gain }
    else none
  | none => none

/-- STORE_WRITE's four gains (R189), or nothing when one is above 4095. -/
def gainsOf (a : List Byte) : Option (PerStation Nat) :=
  let g := fun i => (word16At a (2 * i)).toNat
  if g 0 ≤ 4095 ∧ g 1 ≤ 4095 ∧ g 2 ≤ 4095 ∧ g 3 ≤ 4095 then some ⟨g 0, g 1, g 2, g 3⟩ else none

end Sys2Proof.Machine
end

