-- ==== Sys2Proof/Machine/Kerf.lean ====
section
/-! DEFINITION. The Kerf Record Store: entries and their order, what the store answers, reservation, release and the
arbiter (chapter 5), and the cut boundary (R117). -/

namespace Sys2Proof.Machine

/-! ## Entries (R82 to R85) -/

/-- Class TAIL (R82). -/
def KerfState.isTail : KerfState → Bool
  | .tail | .tailIssued | .tailCut => true
  | .pending | .issued | .cut => false

/-- Class MAIN (R82). -/
def KerfEntry.isMain (e : KerfEntry) : Bool := !e.state.isTail

/-- The entry a frame is recorded as, at its issue or at tail intake (R82, R83). -/
def QEntry.toKerf (q : QEntry) (state : KerfState) (direction : Option Direction) : KerfEntry where
  ordinal := q.ordinal
  seg := q.seg
  seq := q.seq
  handle := q.handle
  state := state
  progress := 0
  direction := direction

/-- A new entry takes the place its ordinal gives it (R85, R87). -/
def kerfInsert (e : KerfEntry) : List KerfEntry → List KerfEntry
  | [] => [e]
  | f :: rest => if e.ordinal ≤ f.ordinal then e :: f :: rest else f :: kerfInsert e rest

/-- The contour with a new entry in its kerf record (R87). -/
def Contour.record (c : Contour) (e : KerfEntry) : Contour := { c with kerf := kerfInsert e c.kerf }

/-- The entry of ordinal `k`. -/
def Contour.entry? (c : Contour) (k : Nat) : Option KerfEntry := c.kerf.find? fun e => e.ordinal == k

/-- The contour with its entry of ordinal `k` changed. -/
def Contour.modEntry (c : Contour) (k : Nat) (f : KerfEntry → KerfEntry) : Contour :=
  { c with kerf := c.kerf.map fun e => if e.ordinal = k then f e else e }

/-- h: the highest ordinal among the contour's main-pass entries, 0 when it has none (R26, R85). -/
def Contour.h (c : Contour) : Nat := c.kerf.foldl (fun m e => if e.isMain then max m e.ordinal else m) 0

/-- The main-pass entry in PENDING of lowest ordinal (R67, R92). -/
def Contour.lowestPending (c : Contour) : Option KerfEntry := c.kerf.find? fun e => e.state == .pending

/-- The contour's main pass is at the tab ordinal: the plan is TAB and the next ordinal equals t (R27, R69). -/
def Contour.atTab (c : Contour) : Bool := c.plan.tabOrdinal? = some (c.h + 1)

/-- The tail entries in the order of an approach (R134). -/
def Contour.tailOrder (c : Contour) (approach : Direction) : List KerfEntry :=
  match approach with
  | .forward => c.kerf.filter fun e => e.state.isTail
  | .reverse => (c.kerf.filter fun e => e.state.isTail).reverse

/-- The CUT entries of ordinals 1 to `bound`, in ordinal order (R92, R125). -/
def Contour.cutUpTo (c : Contour) (bound : Nat) : List KerfEntry :=
  c.kerf.filter fun e => e.state == .cut && decide (e.ordinal ≤ bound)

/-- The traverse part of an approach (R134): ordinals 1 to t − 1, or the lead-in under REVERSE. -/
def Contour.traversePart (c : Contour) (p : PassWork) : List KerfEntry :=
  match p.approach with
  | .forward => c.cutUpTo (p.t - 1)
  | .reverse => c.cutUpTo c.cfg.leadIn

/-- The repeated approach (R139): the traverse part, then the TAIL_CUT entries in the order and direction of the
approach. -/
def Contour.repeatedApproach (c : Contour) (p : PassWork) : List (Direction × KerfEntry) :=
  (c.traversePart p).map (fun e => (.forward, e))
    ++ ((c.tailOrder p.approach).filter fun e => e.state == .tailCut).map fun e => (p.approach, e)

/-- The first tail entry in approach order that is in TAIL: one a stop returned before any not yet issued, because
tail entries are issued in approach order (R92, R135). -/
def Contour.nextTail (c : Contour) (approach : Direction) : Option KerfEntry :=
  (c.tailOrder approach).find? fun e => e.state == .tail

/-- Every tail entry is TAIL_CUT (R136). -/
def Contour.tailAllCut (c : Contour) : Bool := c.kerf.all fun e => !e.state.isTail || e.state == .tailCut

/-- The tab pass the contour is in, if its work is a tail's rather than a main pass's (R120, R138). -/
def Works.tailWork (w : Works) (st : St) (id : Nat) : Option PassWork :=
  match (w.station st).pass with
  | none => none
  | some r => r.work.filter fun p => p.contour == id

/-- The last ordinal of the main pass as the plan stands: t − 1 under TAB, otherwise the segment count (R20, R21). -/
def Contour.lastMain (c : Contour) : Nat :=
  match c.plan.tabOrdinal? with
  | some t => t - 1
  | none => c.cfg.segments

/-- The cut boundary of a main pass (R117): the lowest ordinal above the cut cursor with its entry's progress, or,
when every segment of the pass has been cut, the last one at its full length. -/
def Contour.mainBoundary (c : Contour) : Nat × Nat :=
  let k := min (c.prog.cursor + 1) c.lastMain
  match c.entry? k with
  | none => (k, 0)
  | some e => (k, if c.prog.cursor < c.lastMain then (if e.isMain then e.progress else 0) else e.seg.length)

/-- The cut boundary of a tab pass (R117): the first tail entry in approach order that is not TAIL_CUT with its
progress, or, when all are, the last of the approach at its full length. -/
def Contour.tailBoundary (c : Contour) (approach : Direction) : Nat × Nat :=
  match (c.tailOrder approach).find? fun e => e.state != .tailCut with
  | some e => (e.ordinal, e.progress)
  | none =>
    match (c.tailOrder approach).getLast? with
    | some e => (e.ordinal, e.seg.length)
    | none => (0, 0)

/-- The cut boundary of the contour in the pass it is in (R117). -/
def Works.boundary (w : Works) (st : St) (id : Nat) (c : Contour) : Nat × Nat :=
  match w.tailWork st id with
  | some p => c.tailBoundary p.approach
  | none => c.mainBoundary

/-! ## Reservation, release and the arbiter (R86 to R90) -/

/-- The slots reserved for contour `id` (R5). -/
def Works.reservedFor (w : Works) (id : Nat) : Nat := ((w.contour? id).map fun c => c.prog.reservation).getD 0

/-- A grant: the need moves from free to reserved, the contour's reservation field is set, last granted becomes the
station, and the station leaves the waiting set (R86, R90). A contour that asks holds nothing, since it asks once per
run (R86); were it to hold slots, they would return to free, as every slot is in one condition (R81). -/
def Works.grant (w : Works) (st : St) (id need : Nat) : Works :=
  { w.modContour id fun c => { c with prog := { c.prog with reservation := need } } with
    pool :=
      { free := w.pool.free + w.reservedFor id - need, waiting := w.pool.waiting.set st none, lastGranted := st } }

/-- The contour is in ENTERING, as the contour of a waiting station is (R65, R89). -/
def Works.isEntering (w : Works) (id : Nat) : Bool := (w.contour? id).any fun c => c.state == .entering

/-- One round of the arbiter: the first waiting station in rotation after last granted whose need fits is granted,
and its activity returns to ENTERING (R89, R90). -/
def Works.arbiterRound (w : Works) : Option Works :=
  (rotation w.pool.lastGranted).findSome? fun g =>
    match w.pool.waiting.get g with
    | none => none
    | some r =>
      if r.need ≤ w.pool.free ∧ w.isEntering r.contour = true then
        some ((w.grant g r.contour r.need).upd g fun x => { x with activity := .entering })
      else none

/-- Rounds of the arbiter until no waiting station's need fits; four stations can be granted at most (R90). -/
def Works.arbiterRounds : Nat → Works → Works
  | 0, w => w
  | n + 1, w =>
    match w.arbiterRound with
    | none => w
    | some w' => Works.arbiterRounds n w'

/-- The release of a contour's reservation (R88): every entry is removed, still-held marks are reported DISCARDED
in ordinal order, all slots return to free, and the arbiter serves the waiting set (R90). -/
def Works.release (w : Works) (id : Nat) : Works :=
  match w.contour? id with
  | none => w
  | some c =>
    if c.prog.reservation = 0 then w
    else
      let w1 := w.markReports c.cfg.station (c.kerf.filterMap (KerfEntry.mark id)) .discarded
      let w2 := w1.modContour id fun c => { c with kerf := [], prog := { c.prog with reservation := 0 } }
      Works.arbiterRounds 4 { w2 with pool := { w2.pool with free := w2.pool.free + c.prog.reservation } }

/-- The reservation request of an entry (R86): granted if the free slots are at least the need; otherwise the station
waits, with a KERF_WAIT report and notice (R65). -/
def Works.requestReservation (w : Works) (st : St) (id need : Nat) : Works :=
  if need ≤ w.pool.free then w.grant st id need
  else
    let w1 := { w with pool := { w.pool with waiting := w.pool.waiting.set st (some { contour := id, need := need }) } }
    ((w1.upd st fun x => { x with activity := .waitKerf }).report st (.kerfWait id need)).raise flagKerfWait

/-! ## Figures of KERF_STATUS (R93) -/

/-- The slot counts of one station (R93). -/
def Works.kerfCount (w : Works) (st : St) : KerfCount :=
  let mine := (w.contours.map Prod.snd).filter fun c => c.cfg.station == st
  { unallocated := (mine.map fun c => c.prog.reservation - c.kerf.length).sum
    allocated := (mine.map fun c => c.kerf.length).sum
    contours := (mine.filter fun c => decide (0 < c.prog.reservation)).length }

end Sys2Proof.Machine
end

