-- ==== Sys2Proof/Machine/Holds.lean ====
section
/-! DEFINITION. Holds, the end of a contour's work, and contour failure (R74, R144 to R146, R153, R154). -/

namespace Sys2Proof.Machine

/-- An event adds hold reasons (R144, R145): while the station is ACTIVE or HELD, those not already in the set are
added, the station is HELD, a HELD report is built, STATION_HELD is set, and outstanding work is stopped (R60). The
fault code is carried when DRIVE_FAULT is added, the failure cause when CONTOUR_FAILED is added. -/
def Works.addHolds (w : Works) (st : St) (rs : Holds) (code : Option Byte) (cause : Option Cause) : Works :=
  let x := w.station st
  let new := rs.without x.holds
  if x.working = true ∧ new ≠ Holds.none then
    let all := x.holds.union new
    let w1 := w.upd st fun x => { x with holds := all, state := .held }
    let w2 := w1.report st
      (.held new all x.activity x.current (if new.driveFault then code else none)
        (if new.contourFailed then cause else none))
    (w2.raise (flagStationHeld st)).upd st Station.callStop
  else w

/-- Reasons leave the set (R146). -/
def Works.removeHolds (w : Works) (st : St) (rs : Holds) : Works :=
  w.upd st fun x => { x with holds := x.holds.without rs }

/-- A HELD station whose set has become empty is ACTIVE again, and RESUMED is built (R146). -/
def Works.resumeIfClear (w : Works) (st : St) (why : Clearing) : Works :=
  let x := w.station st
  if x.state = .held ∧ x.holds = Holds.none then
    (w.upd st fun x => { x with state := .active }).report st (.resumed why x.activity x.current)
  else w

/-- The activity after a contour stops being current: WAITING, or TAB_PASS within a pass (R74, R153). -/
def Station.afterContour (x : Station) : Activity := if x.pass.isSome then .tabPass else .waiting

/-- The per-contour fields of the pass record are emptied (R137, R142). -/
def Station.emptyPass (x : Station) : Station :=
  { x with pass := x.pass.map fun r => { r with work := none } }

/-- A contour stops being current: its recovery record, closing record and catch wait go with it, and the activity
becomes WAITING, or stays TAB_PASS (R56, R74, R153). -/
def Station.leaveContour (x : Station) : Station :=
  { x.emptyPass with
    current := none, recovery := none, closing := none, catchWait := none, breakPending := false
    activity := x.afterContour }

/-- The CONTOUR_END report of a contour, from its record as it stands (R74, R153). -/
def Works.reportContourEnd (w : Works) (st : St) (id : Nat) : Works :=
  match w.contour? id with
  | none => w
  | some c =>
    w.report st
      (.contourEnd id c.state (c.prog.outcome.getD .success) c.prog.arrived c.prog.cursor c.prog.breaks c.prog.offset)

/-- The contour becomes COMPLETE (R74). -/
def Works.complete (w : Works) (st : St) (id : Nat) : Works :=
  let w1 := w.modContour id fun c => { c with state := .complete, prog := { c.prog with outcome := some .success } }
  let w2 := (w1.release id).upd st fun x =>
    { x.leaveContour with completed := saturate Config.countLimit x.completed }
  w2.reportContourEnd st id

/-- A closing contour with no pending failure becomes COMPLETE when CUT received and confirmation satisfied are both
yes (R74). -/
def Works.tryComplete (w : Works) (st : St) : Works :=
  match w.current? st, (w.station st).closing with
  | some (id, c), some k =>
    if c.state = .closing ∧ c.prog.pendingFailure = none ∧ k.cutReceived = true ∧ k.satisfied = true then
      w.complete st id
    else w
  | _, _ => w

/-- Confirmation satisfied becomes yes, and the catch wait is disarmed (R73). -/
def Station.satisfy (x : Station) : Station :=
  { x with catchWait := none, closing := x.closing.map fun k => { k with satisfied := true } }

/-- The entries of contour `id` still in the inbound queue, which stand at its head, are discarded: MARK reports
DISCARDED in sequence order, consumed through at the last, PROGRESS updated (R46, R153). -/
def Works.discardContour (w : Works) (st : St) (id : Nat) : Works :=
  let mine := (w.station st).adm.queue.takeWhile fun e => e.contour == id
  match mine.getLast? with
  | none => w
  | some e =>
    let w1 := w.markReports st (mine.filterMap QEntry.mark) .discarded
    (w1.upd st fun x =>
      { x with adm := { x.adm with queue := x.adm.queue.drop mine.length }.setConsumed e.seq }).progressUpdate st

/-- The actions of R153 under SKIP, which SKIP_CONTOUR also takes (R155): FAILED with this cause, the discard, the
release, the end of the station's work on the contour, CONTOUR_END, and a wire cut due when the wire is not
UNTHREADED and no WIRE_CUT is outstanding. -/
def Works.failSkip (w : Works) (st : St) (id : Nat) (cause : Cause) : Works :=
  let w1 := w.modContour id fun c =>
    { c with state := .failed, prog := { c.prog with outcome := some cause, pendingFailure := none } }
  let w2 := w1.upd st fun x => { x with failed := saturate Config.countLimit x.failed }
  let w3 := (w2.discardContour st id).release id
  let w4 := w3.upd st fun x =>
    { x.leaveContour with
      failureCutDue := decide (x.wire ≠ .unthreaded) && !(x.pair.any fun o => o.body.isWireCut) }
  w4.reportContourEnd st id

/-- Under HALT the contour's pending failure becomes the cause and CONTOUR_FAILED is added (R154). `code` is the
code of the FAULT that is the same event, if any: one HELD report then carries both reasons (R145). -/
def Works.failHalt (w : Works) (st : St) (id : Nat) (cause : Cause) (code : Option Byte) : Works :=
  let w1 := w.modContour id fun c => { c with prog := { c.prog with pendingFailure := some cause } }
  let rs := (Holds.only .contourFailed).union (if code.isSome then Holds.only .driveFault else Holds.none)
  w1.addHolds st rs code (some cause)

/-- A contour failure of the station's current contour: CONTOUR_FAILED is flagged and the failure policy read
(R153, R154). -/
def Works.failContour (w : Works) (st : St) (cause : Cause) (code : Option Byte) : Works :=
  match w.current? st with
  | none => w
  | some (id, c) =>
    let w1 := w.raise flagContourFailed
    match c.cfg.policy with
    | .skip => w1.failSkip st id cause
    | .halt => w1.failHalt st id cause code

/-- The activity that goes with what the current contour is doing (R54). -/
def Works.workActivity (w : Works) (st : St) : Activity :=
  match w.current? st with
  | none => (w.station st).afterContour
  | some (_, c) =>
    if (w.station st).pass.isSome then .tabPass
    else
      match c.state with
      | .cutting => .cutting
      | .tailIntake => .tailIntake
      | .closing => .closing
      | .entering => .entering
      | .defined | .queued | .deferred | .tabCutting | .complete | .failed | .aborted => .waiting

end Sys2Proof.Machine
end

