-- ==== Sys2Proof/Machine/Threading.lean ====
section
/-! DEFINITION. The Threading Controller: the start, course and end of an episode and what the drive's reports and
breaks do to it (chapter 6), with the work that follows an episode (R66, R123, R124, R134). -/

namespace Sys2Proof.Machine

/-- The controller's state and record change. -/
def Works.modThreader (w : Works) (st : St) (f : Threader → Threader) : Works :=
  w.upd st fun x => { x with tc := f x.tc }

/-- The episode record changes, if there is one. -/
def Works.modEpisode (w : Works) (st : St) (f : Episode → Episode) : Works :=
  w.modThreader st fun t => { t with episode := t.episode.map f }

/-- The outcome of a failed episode, as the contour failure's cause (R107, R6). -/
def ThreadOutcome.cause : ThreadOutcome → Cause
  | .threaded => .success
  | .threadAttempts => .threadAttempts
  | .adjLimit => .adjLimit
  | .lockout => .lockout
  | .aborted => .aborted

/-- The end of an episode (R107): IDLE, one summary flag, the THREAD report, THREAD_FAILED on failure, and the record
removed. -/
def Works.endEpisode (w : Works) (st : St) (out : ThreadOutcome) : Works :=
  match (w.station st).tc.episode with
  | none => w
  | some e =>
    let w1 := w.modThreader st fun t =>
      { t with state := .idle, ok := out == .threaded, fail := out != .threaded, episode := none }
    let w2 := w1.report st (.thread e.kind e.contour out e.attempts e.offset)
    match out with
    | .threadAttempts | .adjLimit | .lockout => w2.raise flagThreadFailed
    | .threaded | .aborted => w2

/-! ## What follows an episode -/

/-- The end of a recovery (R123, R125): the record is removed and the activity returns to CUTTING or TAB_PASS. In a
tab pass the traverse part of the approach is behind the wire, so approach next stands past it (log entry 32). -/
def Works.endRecovery (w : Works) (st : St) : Works :=
  let w1 := w.upd st fun x => { x with recovery := none }
  let w2 := w1.upd st fun x => { x with activity := w1.workActivity st }
  match w2.current? st with
  | none => w2
  | some (_, c) =>
    w2.upd st fun x =>
      { x with
        pass := x.pass.map fun r =>
          { r with work := r.work.map fun p => { p with next := max p.next (c.traversePart p).length } } }

/-- The traverse list of a recovery at step TRAVERSE (R125, R139). -/
def Works.traverseList (w : Works) (st : St) (id : Nat) (c : Contour) : List (Direction × KerfEntry) :=
  match w.tailWork st id with
  | some p => c.repeatedApproach p
  | none => (c.cutUpTo (c.mainBoundary.1 - 1)).map fun e => (.forward, e)

/-- The step of the recovery record changes. -/
def Works.modRecovery (w : Works) (st : St) (f : Recovery → Recovery) : Works :=
  w.upd st fun x => { x with recovery := x.recovery.map f }

/-- The pass record's per-contour fields change. -/
def Works.modPass (w : Works) (st : St) (f : PassWork → PassWork) : Works :=
  w.upd st fun x => { x with pass := x.pass.map fun r => { r with work := r.work.map f } }

/-- The work that follows a successful episode: of a recovery (R123, R124), of a tab pass (R134), or of an entry
(R66). The wire place is set as R114 gives. -/
def Works.afterSuccess (w : Works) (st : St) (kind : EpisodeKind) : Works :=
  let place : WirePlace := match kind with
    | .startHole => .startHole
    | .inKerf => .inCut
  let w1 := w.upd st fun x => { x with wire := .threaded, wirePlace := place }
  match w1.current? st with
  | none => w1
  | some (id, c) =>
    match (w1.station st).recovery with
    | some _ =>
      match kind with
      | .inKerf => w1.endRecovery st
      | .startHole =>
        if (w1.traverseList st id c).isEmpty then w1.endRecovery st
        else w1.modRecovery st fun r => { r with step := .traverse, next := some 0 }
    | none =>
      match w1.tailWork st id with
      | some _ => w1.modPass st fun p => { p with step := .approach, next := 0 }
      | none => (w1.modContour id fun c => c.setState .cutting).upd st fun x => { x with activity := .cutting }

/-- An episode ends in success (R103): the wire is THREADED and the contour's thread offset is the episode's. -/
def Works.episodeSucceeds (w : Works) (st : St) : Works :=
  match (w.station st).tc.episode with
  | none => w
  | some e =>
    let w1 := (w.endEpisode st .threaded).modContour e.contour fun c =>
      { c with prog := { c.prog with offset := e.offset } }
    w1.afterSuccess st e.kind

/-- An episode ends in failure (R107): a failed in-kerf episode of a recovery falls back to the start-hole path
(R123); any other failure is the contour's (R66, R124, R142). -/
def Works.episodeFails (w : Works) (st : St) (out : ThreadOutcome) : Works :=
  match (w.station st).tc.episode with
  | none => w
  | some e =>
    let w1 := w.endEpisode st out
    match e.kind with
    | .inKerf => w1.modRecovery st fun r => { r with path := some .startHole, step := .travel }
    | .startHole => w1.failContour st out.cause none

/-! ## The course of an episode -/

/-- An attempt is due (R97): with the attempts used up the episode fails; otherwise the attempt's variables are set
afresh, and the THREAD is issued when the station is free to issue it. -/
def Works.attemptDue (w : Works) (st : St) : Works :=
  match (w.station st).tc.episode with
  | none => w
  | some e =>
    if e.attempts = e.attemptLimit then w.episodeFails st .threadAttempts
    else w.modEpisode st fun e =>
      { e with lockRun := 0, lastMiss := none, broken := false, lockoutPending := false, reason := none }

/-- An episode begins (R96): staged parameters are applied, the record is set up, both summary flags are cleared,
and the attempt check is made. -/
def Works.startEpisode (w : Works) (st : St) (kind : EpisodeKind) (id : Nat) (c : Contour) : Works :=
  let t := (w.station st).tc
  let p := t.staged.getD t.params
  let e : Episode :=
    { kind := kind
      contour := id
      attemptLimit := match kind with
        | .startHole => c.cfg.attemptLimit
        | .inKerf => p.inKerfLimit
      lockCount := p.lockCount
      offsetBound := p.offsetBound
      relock := p.relock
      attempts := 0
      offset := 0
      lockRun := 0
      lastMiss := none
      broken := false
      lockoutPending := false
      reason := none
      clearanceDue := false }
  (w.modThreader st fun t =>
    { t with params := p, staged := none, ok := false, fail := false, episode := some e }).attemptDue st

/-- The outstanding tool operation leaves the pair and the controller's state changes. -/
def Works.toolEnds (w : Works) (st : St) (s : ThreaderState) : Works :=
  (w.upd st fun x => { x with pair := [] }).modThreader st fun t => { t with state := s }

/-- A PROBE taken (R98, R104): it counts in FEEDING with the attempt not broken and no STOP awaited. The N-th
consecutive SEATED ends the THREAD, and CONFIRM is issued. A result byte that names no result changes nothing (log
entry 7). -/
def Works.probe (w : Works) (st : St) (result : Byte) : Works :=
  let x := w.station st
  match x.tc.episode, probeResultOf result with
  | some e, some r =>
    if x.tc.state = .feeding ∧ e.broken = false ∧ x.stopAwaited = false then
      match r with
      | .short => w.modEpisode st fun e => { e with lockRun := 0, lastMiss := some .short }
      | .long => w.modEpisode st fun e => { e with lockRun := 0, lastMiss := some .long }
      | .seated =>
        let w1 := w.modEpisode st fun e => { e with lockRun := e.lockRun + 1 }
        if e.lockRun + 1 = e.lockCount then (w1.toolEnds st .locked).upd st fun x => x.push .confirm else w1
    else w
  | _, _ => w

/-- ABANDON is issued with this reason, and the controller goes to ABANDONING (R99, R102, R105). -/
def Works.issueAbandon (w : Works) (st : St) : Works :=
  (w.modThreader st fun t => { t with state := .abandoning }).upd st fun x => x.push .abandon

/-- A PROBE_END taken (R99, R104): in FEEDING with no STOP awaited it ends the THREAD; the attempt has missed, or
was broken and counted at its break, and ABANDON is issued. -/
def Works.probeEnd (w : Works) (st : St) : Works :=
  let x := w.station st
  match x.tc.episode with
  | none => w
  | some _ =>
    if x.tc.state = .feeding ∧ x.stopAwaited = false then
      let w1 := w.modEpisode st fun e =>
        if e.broken then { e with reason := some .broken }
        else { e with attempts := e.attempts + 1, reason := some .miss }
      (w1.toolEnds st .idle).issueAbandon st
    else w

/-- Lockout is taken (R102): the attempt is counted, and an ABANDON with reason LOCKOUT is due. -/
def Works.takeLockout (w : Works) (st : St) : Works :=
  (w.modEpisode st fun e => { e with attempts := e.attempts + 1, reason := some .lockout }).toolEnds st .idle

/-- A THREADED taken (R102, R103, R104): in LOCKED it is a success, or takes lockout. In a teardown the episode ends
with outcome ABORTED and leaves the wire as R108 gives (the attempt is counted, log entry 8). -/
def Works.threaded (w : Works) (st : St) : Works :=
  let x := w.station st
  match x.tc.episode with
  | none => w
  | some e =>
    if x.tc.state = .locked then
      if x.state = .aborting then
        let w1 := (w.modEpisode st fun e => { e with attempts := e.attempts + 1 }).toolEnds st .idle
        (w1.endEpisode st .aborted).upd st fun x => { x with wire := if e.lockoutPending then .broken else .threaded }
      else if e.lockoutPending then w.takeLockout st
      else ((w.modEpisode st fun e => { e with attempts := e.attempts + 1 }).toolEnds st .idle).episodeSucceeds st
    else w

/-- An ABANDONED after a miss (R100): the offset moves by the last miss, and at the bound the episode fails. -/
def Works.afterMiss (w : Works) (st : St) (e : Episode) : Works :=
  let next : Int := match e.lastMiss with
    | some .short => e.offset + 1
    | some .long => e.offset - 1
    | none => e.offset
  if next < -(e.offsetBound : Int) ∨ (e.offsetBound : Int) < next then w.episodeFails st .adjLimit
  else (w.modEpisode st fun e => { e with offset := next }).attemptDue st

/-- An ABANDONED taken (R100, R104, R108): in ABANDONING it ends the ABANDON, and the controller acts on the abandon
reason. In a teardown it only ends the episode: the offset index that the ABORTED THREAD report carries is not moved by
the last miss (log entry 28). -/
def Works.abandoned (w : Works) (st : St) : Works :=
  let x := w.station st
  match x.tc.episode with
  | none => w
  | some e =>
    if x.tc.state = .abandoning then
      let w1 := w.toolEnds st .idle
      if x.state = .aborting then (w1.endEpisode st .aborted).upd st fun x => x.setWire .unthreaded
      else
        let w2 := w1.modEpisode st fun e => { e with reason := none }
        match e.reason with
        | some .miss => w2.afterMiss st e
        | some .broken => w2.attemptDue st
        | some .lockout =>
          match e.relock with
          | .retry => w2.attemptDue st
          | .fail => w2.episodeFails st .lockout
        | some .clearance => (w2.modEpisode st fun e => { e with clearanceDue := false }).attemptDue st
        | none => w2
    else w

/-- A THREAD ended by a STOP's answer or by a FAULT (R105, R106): the attempt has no outcome of its own, and wire has
been fed that must be cleared. In a teardown the episode ends and the wire is UNKNOWN (R108). -/
def Works.threadEnds (w : Works) (st : St) : Works :=
  let w1 := w.modThreader st fun t => { t with state := .idle }
  if (w.station st).state = .aborting then (w1.endEpisode st .aborted).upd st fun x => x.setWire .unknown
  else w1.modEpisode st fun e => { e with clearanceDue := true, reason := some .clearance }

/-- A CONFIRM ended by a FAULT (R102, R106, R108): lockout when it was pending, which counts the attempt; otherwise the
attempt is not counted, and a clearance is due. In a teardown the episode ends and the wire is UNKNOWN (log entry 8). -/
def Works.confirmFaults (w : Works) (st : St) : Works :=
  let x := w.station st
  match x.tc.episode with
  | none => w
  | some e =>
    if e.lockoutPending then
      if x.state = .aborting then (w.takeLockout st).threadEnds st else w.takeLockout st
    else w.threadEnds st

/-- An ABANDON ended by a FAULT (R106, R108): it returns to be issued again whole, the reason kept. -/
def Works.abandonFaults (w : Works) (st : St) : Works :=
  if (w.station st).state = .aborting then w.threadEnds st
  else
    (w.modThreader st fun t => { t with state := .idle }).upd st fun x =>
      { x with returned := x.returned ++ [{ body := .abandon, progress := 0 }] }

/-- A BREAK edge while an episode record is present (R101). In IDLE it has no effect, also while an ABANDON that is neither
an attempt due nor a clearance due waits to be issued: after a lockout, or after a FAULT (log entry 34). -/
def Works.breakInEpisode (w : Works) (st : St) : Works :=
  let x := w.station st
  match x.tc.episode with
  | none => w
  | some e =>
    match x.tc.state with
    | .feeding =>
      if e.broken then w else w.modEpisode st fun e => { e with broken := true, attempts := e.attempts + 1 }
    | .locked => w.modEpisode st fun e => { e with lockoutPending := true }
    | .abandoning | .idle => w

end Sys2Proof.Machine
end

