-- ==== Sys2Proof/Machine/Recovery.lean ====
section
/-! DEFINITION. Entries that become CUT or TAIL_CUT, the beginning of a closing, the return of stopped operations, and
the settlement of a break (R60, R68, R72, R84, R115 to R121, R136, R137). -/

namespace Sys2Proof.Machine

/-- The contour's work needs a CUT or KERF move next (R121). A main pass that has ended needs none. -/
def Contour.needsCutting (c : Contour) : Bool :=
  match c.state with
  | .cutting => !c.mainEnded && (c.lowestPending.isSome || (decide (c.prog.cursor < c.cfg.segments) && !c.atTab))
  | .tabCutting => !c.tailAllCut
  | .defined | .queued | .entering | .tailIntake | .deferred | .closing | .complete | .failed | .aborted => false

/-- The time at which a catch wait armed now falls due (R73). -/
def Plan.expiry (p : Plan) (now : Time) : Time := now + BitVec.ofNat 32 (p.timeout * Config.tenth)

/-- A closing begins (R72, R137): the contour is CLOSING, the closing record is set up from the plan as it now stands,
and for CATCH the catch wait is armed. In a teardown no wait is armed (R157; log entry 15). The main pass of a contour
closed after it has ended (log entry 13). -/
def Works.beginClosing (w : Works) (st : St) (id : Nat) : Works :=
  match w.contour? id with
  | none => w
  | some c =>
    let need := c.plan.confirmRequired
    let w1 := w.modContour id fun c => { c with state := .closing, mainEnded := true }
    let w2 := w1.upd st fun x =>
      { x with
        closing := some { cutReceived := false, required := need, satisfied := need == .plain }
        catchWait := if need = .catcher ∧ x.state ≠ .aborting then some (c.plan.expiry w.time) else none }
    match w.tailWork st id with
    | some _ => w2.modPass st fun p => { p with step := .closing }
    | none => w2.upd st fun x => { x with activity := .closing }

/-- A main-pass entry becomes CUT (R68, R83): its mark is reported, the cut cursor rises, and the last ordinal begins
the closing. -/
def Works.entryCut (w : Works) (st : St) (id k : Nat) : Works :=
  match w.contour? id with
  | none => w
  | some c =>
    let w1 := w.modContour id fun c =>
      { c.modEntry k (fun e => { e with state := .cut, handle := none }) with
        prog := { c.prog with cursor := c.prog.cursor + 1 } }
    let w2 := w1.markReport? st ((c.entry? k).bind (KerfEntry.mark id)) .done
    if k = c.cfg.segments then w2.beginClosing st id else w2

/-- A tail entry becomes TAIL_CUT (R83, R136): its mark is reported, and the last of the tail begins the closing. -/
def Works.tailCut (w : Works) (st : St) (id k : Nat) : Works :=
  match w.contour? id with
  | none => w
  | some c =>
    let c1 := c.modEntry k fun e => { e with state := .tailCut, handle := none }
    let w1 := w.modContour id fun _ => c1
    let w2 := w1.markReport? st ((c.entry? k).bind (KerfEntry.mark id)) .done
    if c1.tailAllCut then w2.beginClosing st id else w2

/-- The progress an entry keeps when its move ends at `p` (R84): the greater of the two, never past the segment's
length (log entry 14). -/
def KerfEntry.kept (e : KerfEntry) (p : Nat) : Nat := min (max p e.progress) e.seg.length

/-- An entry's move ended short of a DONE (R60, R83, R84): the entry keeps the progress, and at its full length it counts
as cut; otherwise it returns to PENDING or TAIL. -/
def Works.entryReturns (w : Works) (st : St) (id k p : Nat) (tail : Bool) : Works :=
  match (w.contour? id).bind fun c => c.entry? k with
  | none => w
  | some e =>
    let w1 := w.modContour id fun c => c.modEntry k fun e => { e with progress := e.kept p }
    if e.kept p = e.seg.length then if tail then w1.tailCut st id k else w1.entryCut st id k
    else w1.modContour id fun c => c.modEntry k fun e => { e with state := if tail then .tail else .pending }

/-- A stopped operation that is no kerf entry joins the returned operations (R61); in a teardown nothing returns
(R157; log entry 15). -/
def Works.opReturns (w : Works) (st : St) (body : OpBody) (p : Nat) : Works :=
  w.upd st fun x =>
    if x.state = .aborting then x else { x with returned := x.returned ++ [{ body := body, progress := p }] }

/-- A wire cut ended by a FAULT (R62, R158): issued again whole, but in a teardown it is not, and a teardown's own
leaves the wire UNKNOWN. -/
def Works.wireCutFaults (w : Works) (st : St) (purpose : CutPurpose) : Works :=
  if (w.station st).state = .aborting then
    if purpose = .teardown then w.upd st fun x => x.setWire .unknown else w
  else w.opReturns st (.wireCut purpose) 0

/-- An operation that has left the pair at a STOPPED or FAULT is dealt with by its kind, `p` being where it stood
(R60, R62, R105, R106). -/
def Works.opEnds (w : Works) (st : St) (body : OpBody) (p : Nat) : Works :=
  match body with
  | .move _ _ _ _ (.mainEntry id k) => w.entryReturns st id k p false
  | .move _ _ _ _ (.tailEntry id k) => w.entryReturns st id k p true
  | .move _ _ _ _ (.traverse _ _) | .move _ _ _ _ .entryTravel | .move _ _ _ _ .passTravel
  | .move _ _ _ _ .recoveryTravel | .move _ _ _ _ (.directive _) | .dwell _ _ => w.opReturns st body p
  | .thread _ => w.threadEnds st
  | .confirm => w.confirmFaults st
  | .abandon => w.abandonFaults st
  | .wireCut purpose => w.wireCutFaults st purpose

/-- The wire place that the end of a move gives (R114). -/
def OpBody.place? : OpBody → Option WirePlace
  | .move .cut _ _ _ _ => some .inCut
  | .move .kerf _ _ _ _ => some .inTraverse
  | .move .travel _ _ _ _ | .thread _ | .confirm | .abandon | .wireCut _ | .dwell _ _ => none

/-- The ordinal of the segment an operation runs, if it runs one of a contour (R116). -/
def OpBody.ordinal? : OpBody → Option Nat
  | .move _ _ _ _ (.mainEntry _ k) | .move _ _ _ _ (.tailEntry _ k) | .move _ _ _ _ (.traverse _ k) => some k
  | .move _ _ _ _ .entryTravel | .move _ _ _ _ .passTravel | .move _ _ _ _ .recoveryTravel
  | .move _ _ _ _ (.directive _) | .thread _ | .confirm | .abandon | .wireCut _ | .dwell _ _ => none

/-- Part of the work a break has broken: a KERF traverse or a TRAVEL (R116). -/
def OpBody.isBrokenWork : OpBody → Bool
  | .move .kerf _ _ _ _ | .move .travel _ _ _ _ => true
  | .move .cut _ _ _ _ | .thread _ | .confirm | .abandon | .wireCut _ | .dwell _ _ => false

/-- The wire place follows the end of this operation (R114). -/
def Station.followPlace (x : Station) (body : OpBody) : Station :=
  match body.place? with
  | some p => x.setPlace p
  | none => x

/-- A recovery record at step DUE (R116 step 6, R120). -/
def Recovery.fresh (id : Nat) (pass : Pass) (place : WirePlace) : Recovery where
  contour := id
  pass := pass
  place := place
  path := none
  step := .due
  next := none

/-- A charged break is settled, steps 2 to 6 of R116; `position` is that of the move the STOP's answer named. A break
settled during a teardown is counted and reported and fails nothing (R161; log entry 15). -/
def Works.settleBreak (w : Works) (st : St) (position : Option (Nat × Nat)) (code : Option Byte) : Works :=
  let place := (w.station st).wirePlace
  let w1 := w.upd st fun x =>
    { x with
      breakPending := false
      wirePlace := .nowhere
      returned := x.returned.filter fun r => !r.body.isBrokenWork }
  match w1.current? st with
  | none => w1
  | some (id, c) =>
    let pass : Pass := if (w1.tailWork st id).isSome then .tail else .main
    let boundary := w1.boundary st id c
    let count := c.prog.breaks + 1
    let exceeded := decide (c.cfg.breakLimit < count)
    let w2 := w1.modContour id fun c => { c with prog := { c.prog with breaks := count } }
    let w3 := (w2.report st
      (.wireBreak id pass place (position.getD boundary) boundary count exceeded)).raise flagWireBreak
    let w4 := w3.upd st fun x => { x with recovery := some (Recovery.fresh id pass place) }
    if exceeded ∧ (w.station st).state ≠ .aborting then w4.failContour st .breakLimit code else w4

end Sys2Proof.Machine
end

