-- ==== Sys2Proof/Machine/Teardown.lean ====
section
/-! DEFINITION. Teardown by ABORT or drive loss, drive loss itself, and the return of a station to IDLE (R49, R63, R77,
R108, R157 to R160). -/

namespace Sys2Proof.Machine

/-- The station becomes IDLE (R49, R77, R160): activity WAITING, the program NONE with no open contour, and a staged set
of parameters applied (R111). -/
def Station.toIdle (x : Station) : Station :=
  { x with
    state := .idle
    activity := .waiting
    adm := { x.adm with program := none, openContour := none }
    tc := { x.tc with params := x.tc.staged.getD x.tc.params, staged := none }
    endProgram := none
    teardown := none
    kerfRequest := .none }

/-- An episode with nothing outstanding ends with outcome ABORTED (R108, R157): the wire is UNKNOWN if a clearance was
due, and unchanged otherwise. -/
def Works.abortIdleEpisode (w : Works) (st : St) : Works :=
  match (w.station st).tc.episode with
  | none => w
  | some e =>
    if (w.station st).tc.state = .idle then
      let w1 := w.endEpisode st .aborted
      if e.clearanceDue then w1.upd st fun x => x.setWire .unknown else w1
    else w

/-- A teardown begins (R157), and a MOVE, DWELL or THREAD outstanding is stopped (R158). -/
def Works.startTeardown (w : Works) (st : St) (cause : TeardownCause) : Works :=
  let w1 := w.upd st fun x =>
    { x with
      state := .aborting, holds := Holds.none, catchWait := none, returned := [], failureCutDue := false
      teardown := some cause }
  let w2 := { w1 with pool := { w1.pool with waiting := w1.pool.waiting.set st none } }
  (w2.abortIdleEpisode st).upd st Station.callStop

/-- Drive loss (R63): every outstanding operation leaves the pair unanswered, the wire is UNKNOWN, a charged break is
settled with no answer to take, and the station is torn down. -/
def Works.driveLoss (w : Works) (st : St) : Works :=
  let w1 := w.upd st fun x =>
    { x with pair := [], stopAwaited := false, wire := .unknown, tc := { x.tc with state := .idle } }
  let w2 := if (w1.station st).breakPending then w1.settleBreak st none none else w1
  let w3 := w2.upd st fun x => { x with wirePlace := .nowhere }
  match (w3.station st).state with
  | .active | .held => w3.startTeardown st .driveLost
  | .aborting => w3.abortIdleEpisode st
  | .idle => w3

/-- One contour of the station in QUEUED or a working state is moved to ABORTED and released (R10, R159); with it, how
many contours and how many uncut tabs the teardown has counted. -/
def Works.abortContour (st : St) (acc : Works × Nat × Nat) (id : Nat) : Works × Nat × Nat :=
  match acc.1.contour? id with
  | none => acc
  | some c =>
    if c.cfg.station = st ∧ (c.state = .queued ∨ c.state.working = true) then
      let w1 := acc.1.modContour id fun c =>
        { c with state := .aborted, prog := { c.prog with pendingFailure := none, outcome := some .aborted } }
      let uncut := c.state = .tailIntake ∨ c.state = .deferred ∨ c.state = .tabCutting
      (w1.release id, acc.2.1 + 1, acc.2.2 + if uncut then 1 else 0)
    else acc

/-- The contours a teardown reaches, in its order (R159): the current one, the deferred ones oldest first, then those
whose FIRST frame is in the queue. Contours of the station that none of the three names come last; R3 and R7 leave
none. -/
def Works.teardownOrder (w : Works) (st : St) : List Nat :=
  let x := w.station st
  x.current.toList ++ x.deferred ++ (x.adm.queue.filter fun e => e.first).map QEntry.contour
    ++ w.contours.map Prod.fst

/-- Step 1 of R159: marks of directives that have left the queue, in the order in which they left it (R159 gives none; log
entry 35), then the queue. -/
def Works.discardQueue (w : Works) (st : St) : Works :=
  let x := w.station st
  let w1 := (w.markReports st x.directiveMarks .discarded).upd st fun x => { x with directiveMarks := [] }
  match x.adm.queue.getLast? with
  | none => w1
  | some e =>
    let w2 := w1.markReports st (x.adm.queue.filterMap QEntry.mark) .discarded
    (w2.upd st fun x => { x with adm := { x.adm with queue := [] }.setConsumed e.seq }).progressUpdate st

/-- The drive is at rest: the teardown clears the station's program, builds the TEARDOWN report, and the station
becomes IDLE (R159, R160). -/
def Works.clearProgram (w : Works) (st : St) : Works :=
  let x := w.station st
  let w1 := (w.discardQueue st).upd st fun x =>
    { x with
      current := none, deferred := [], recovery := none, closing := none, catchWait := none, pass := none
      returned := [], breakPending := false, failureCutDue := false }
  let r := (w.teardownOrder st).foldl (Works.abortContour st) (w1, 0, 0)
  let tag : Byte := match x.adm.program with
    | some p => p.tag
    | none => 0
  let w2 := r.1.report st
    (.teardown tag (x.adm.queue.head?.map QEntry.seq) x.adm.queue.length r.2.1 r.2.2 (x.teardown.getD .request) x.wire)
  w2.upd st Station.toIdle

end Sys2Proof.Machine
end

