-- ==== Sys2Proof/Machine/Sequencer.lean ====
section
/-! DEFINITION. What a Station Sequencer issues and takes up when it is free to: entry, main pass, tail intake, closing,
recovery, tab passes, directives and the teardown's wire cut (R61, R64 to R77, R97, R121 to R125, R131 to R135, R146,
R153, R158). `Works.act` is one such action; `Works.settle` takes actions until none is left. -/

namespace Sys2Proof.Machine

/-! ## Issuing -/

/-- An operation is issued: `pre` is what its issue changes, and it joins the pair with the next issue number (R57). With
the port's link DOWN the issue is drive loss instead (R63). -/
def Works.issue (w : Works) (st : St) (body : OpBody) (pre : Works → Works) : Works :=
  if (w.station st).linkUp then (pre w).upd st fun x => x.push body else w.driveLoss st

/-- A travel to a contour's thread point (R66, R124, R133): FORWARD, entry offset 0, length 0, no taper, and this feed
class. -/
def travelTo (c : Contour) (feed : Nat) (work : MoveWork) : OpBody :=
  .move .travel .forward 0
    { kind := .travel, length := 0, endX := c.cfg.threadX, endY := c.cfg.threadY, centre := none, taper := none
      feed := feed } work

/-- The feed class of the contour's kerf entry of ordinal 1 (R124, R133). A contour whose ordinal 1 has not been issued has
no such entry; the model then takes the feed class of the frame that the entry will copy, the contour's FIRST frame in
the queue, and 0 without one (log entry 29). -/
def Works.firstFeed (w : Works) (st : St) (id : Nat) (c : Contour) : Nat :=
  match c.entry? 1 with
  | some e => e.seg.feed
  | none =>
    match (w.station st).adm.queue.find? fun e => e.first && e.contour == id with
    | some e => e.seg.feed
    | none => 0

/-- A CUT move of a kerf entry, from its progress (R67, R92, R135). -/
def cutMove (direction : Direction) (e : KerfEntry) (work : MoveWork) : OpBody :=
  .move .cut direction e.progress e.seg work

/-- A KERF move over a kerf entry (R125, R134). -/
def kerfMove (direction : Direction) (id : Nat) (e : KerfEntry) : OpBody :=
  .move .kerf direction 0 e.seg (.traverse id e.ordinal)

/-- The form in which a returned operation is issued again (R61). -/
def Returned.again (r : Returned) : OpBody :=
  match r.body with
  | .move .kerf d _ seg work => .move .kerf d r.progress seg work
  | .move .travel d _ seg work => .move .travel d 0 seg work
  | .move .cut d off seg work => .move .cut d off seg work
  | .thread off => .thread off
  | .confirm => .confirm
  | .abandon => .abandon
  | .wireCut purpose => .wireCut purpose
  | .dwell ms mark => .dwell ms mark

/-! ## Tail intake (R70) -/

/-- The last tail frame is recorded: the contour is DEFERRED, joins the list and stops being current (R70). -/
def Works.defer (w : Works) (st : St) (id : Nat) : Works :=
  (w.modContour id fun c => c.setState .deferred).upd st fun x =>
    { x.leaveContour with deferred := x.deferred ++ [id] }

/-- Tail intake: the contour's frame at the head leaves the queue and is recorded as a tail entry (R70). -/
def Works.intakeAct (w : Works) (st : St) : Option Works :=
  match w.current? st, (w.station st).adm.queue with
  | some (id, c), e :: _ =>
    if c.state = .tailIntake ∧ e.contour = id then
      let w1 := (w.modContour id fun c => c.record (e.toKerf .tail none)).consumeHead st
      some (if e.ordinal = c.cfg.segments then w1.defer st id else w1)
    else none
  | _, _ => none

/-! ## Threading and recovery -/

/-- An episode between operations issues what is due: its THREAD, or an ABANDON whose reason it holds (R97, R102,
R105). -/
def Works.threadAct (w : Works) (st : St) (e : Episode) : Option Works :=
  let x := w.station st
  if x.tc.state = .idle ∧ x.pair = [] then
    match e.reason with
    | none => some (w.issue st (.thread e.offset) fun w => w.modThreader st fun t => { t with state := .feeding })
    | some _ => some (w.issue st .abandon fun w => w.modThreader st fun t => { t with state := .abandoning })
  else none

/-- The next traverse move of a recovery (R125); with the last one issued the recovery ends. -/
def Works.traverseAct (w : Works) (st : St) (id : Nat) (c : Contour) (n : Nat) : Option Works :=
  let x := w.station st
  let list := w.traverseList st id c
  if x.wire = .threaded ∧ x.moveRoom = true then
    match list[n]? with
    | none => some (w.endRecovery st)
    | some (d, e) =>
      some (w.issue st (kerfMove d id e) fun w =>
        if n + 1 < list.length then w.modRecovery st fun r => { r with next := some (n + 1) } else w.endRecovery st)
  else none

/-- A recovery goes on at its step (R121 to R125). -/
def Works.recoveryAct (w : Works) (st : St) (id : Nat) (c : Contour) (r : Recovery) : Option Works :=
  let x := w.station st
  match r.step with
  | .due =>
    if x.pair = [] then
      if c.needsCutting then
        some (w.issue st (.wireCut .recovery) fun w =>
          (w.modRecovery st fun r => { r with step := .wireCut }).upd st fun x => { x with activity := .recovering })
      else some (w.upd st fun x => { x with recovery := none, activity := w.workActivity st })
    else none
  | .wireCut => none
  | .travel => if x.pair = [] then some (w.issue st (travelTo c (w.firstFeed st id c) .recoveryTravel) fun w => w) else none
  | .inKerf | .startHole =>
    match x.tc.episode with
    | some e => w.threadAct st e
    | none =>
      if x.pair = [] then some (w.startEpisode st (if r.step = .inKerf then .inKerf else .startHole) id c) else none
  | .traverse => w.traverseAct st id c (r.next.getD 0)

/-! ## The current contour -/

/-- The reservation request of an entry, made once it is due (R65, R89; log entry 33). -/
def Works.dueRequest (w : Works) (st : St) (id : Nat) (c : Contour) : Works :=
  (w.upd st fun x => { x with kerfRequest := .none }).requestReservation st id c.cfg.segments

/-- The steps of an entry whose reservation has been asked for (R66): a wire cut unless the wire is UNTHREADED, the travel,
then the start-hole episode. -/
def Works.entrySteps (w : Works) (st : St) (id : Nat) (c : Contour) : Option Works :=
  let x := w.station st
  match x.activity with
  | .entering =>
    if x.wire ≠ .unthreaded then some (w.issue st (.wireCut .entry) fun w => w)
    else
      match x.adm.queue with
      | e :: _ => some (w.issue st (travelTo c e.seg.feed .entryTravel) fun w => w)
      | [] => none
  | .threading => some (w.startEpisode st .startHole id c)
  | .waiting | .waitKerf | .cutting | .tailIntake | .closing | .recovering | .tabPass | .dwelling | .travelling =>
    none

/-- The entry (R65, R66): its reservation request, and then its steps. -/
def Works.entryAct (w : Works) (st : St) (id : Nat) (c : Contour) : Option Works :=
  let x := w.station st
  if x.pair = [] then
    match x.kerfRequest with
    | .held => none
    | .due => some (w.dueRequest st id c)
    | .none => w.entrySteps st id c
  else none

/-- The main pass (R67, R69): the lowest PENDING entry again; else, at the tab ordinal with the pair empty, the wire cut
that ends the main pass; else the contour's frame of the next ordinal. CUT moves only while the wire is THREADED. -/
def Works.mainAct (w : Works) (st : St) (id : Nat) (c : Contour) : Option Works :=
  let x := w.station st
  if x.activity = .cutting ∧ c.mainEnded = false then
    match c.lowestPending with
    | some e =>
      if x.wire = .threaded ∧ x.moveRoom = true then
        some (w.issue st (cutMove .forward e (.mainEntry id e.ordinal)) fun w =>
          w.modContour id fun c => c.modEntry e.ordinal fun e => { e with state := .issued })
      else none
    | none =>
      if c.atTab then
        if x.pair = [] then
          some (w.issue st (.wireCut .mainEnd) fun w => w.modContour id fun c => { c with mainEnded := true })
        else none
      else
        match x.adm.queue with
        | [] => none
        | e :: _ =>
          if e.contour = id ∧ e.ordinal = c.h + 1 ∧ x.wire = .threaded ∧ x.moveRoom = true then
            let entry := e.toKerf .issued (some .forward)
            some (w.issue st (cutMove .forward entry (.mainEntry id e.ordinal)) fun w =>
              (w.modContour id fun c => c.record entry).consumeHead st)
          else none
  else none

/-- The approach of a pass contour (R134, R135): the traverse part, then the tail, TAIL entries a stop returned coming
first. -/
def Works.approachAct (w : Works) (st : St) (id : Nat) (c : Contour) (p : PassWork) : Option Works :=
  let x := w.station st
  if x.wire = .threaded ∧ x.moveRoom = true then
    match (c.traversePart p)[p.next]? with
    | some e => some (w.issue st (kerfMove .forward id e) fun w => w.modPass st fun p => { p with next := p.next + 1 })
    | none =>
      match c.nextTail p.approach with
      | none => none
      | some e =>
        some (w.issue st (cutMove p.approach e (.tailEntry id e.ordinal)) fun w =>
          (w.modContour id fun c =>
            c.modEntry e.ordinal fun e => { e with state := .tailIssued, direction := some p.approach }).modPass st
              fun p => { p with next := if e.direction.isNone then p.next + 1 else p.next })
  else none

/-- A pass contour's steps (R133 to R135). -/
def Works.passAct (w : Works) (st : St) (id : Nat) (c : Contour) (p : PassWork) : Option Works :=
  let x := w.station st
  match p.step with
  | .travel =>
    if x.pair = [] then
      if x.wire ≠ .unthreaded then some (w.issue st (.wireCut .pass) fun w => w)
      else some (w.issue st (travelTo c (w.firstFeed st id c) .passTravel) fun w => w)
    else none
  | .threading => if x.pair = [] then some (w.startEpisode st .startHole id c) else none
  | .approach => w.approachAct st id c p
  | .closing => none

/-- The closing wire cut still to come (R72, R137). -/
def Works.closingAct (w : Works) (st : St) : Option Works :=
  let x := w.station st
  match x.closing with
  | some k => if k.cutReceived = false ∧ x.pair = [] then some (w.issue st (.wireCut .closing) fun w => w) else none
  | none => none

/-- The work of the current contour: its recovery, its episode, or what its state asks for. A contour with a pending
failure is given no work (R154). -/
def Works.contourAct (w : Works) (st : St) (id : Nat) (c : Contour) : Option Works :=
  let x := w.station st
  if c.prog.pendingFailure.isSome then none
  else
    match x.recovery with
    | some r => w.recoveryAct st id c r
    | none =>
      match x.tc.episode with
      | some e => w.threadAct st e
      | none =>
        match c.state with
        | .entering => w.entryAct st id c
        | .cutting => w.mainAct st id c
        | .tabCutting => (w.tailWork st id).bind fun p => w.passAct st id c p
        | .closing => w.closingAct st
        | .defined | .queued | .tailIntake | .deferred | .complete | .failed | .aborted => none

/-! ## Between contours -/

/-- A contour becomes current and ENTERING (R65). -/
def Works.makeCurrent (w : Works) (st : St) (id : Nat) : Works :=
  (w.modContour id fun c => c.setState .entering).upd st fun x =>
    { x with current := some id, activity := .entering, kerfRequest := .none }

/-- A contour becomes current and asks for its reservation at once (R65, R132). -/
def Works.enterContour (w : Works) (st : St) (id : Nat) (c : Contour) : Works :=
  (w.makeCurrent st id).requestReservation st id c.cfg.segments

/-- The forced-tab-pass check calls for a pass (R65). -/
def Works.passForced (w : Works) (st : St) (c : Contour) : Bool :=
  let deferred := (w.station st).deferred
  (c.plan.tabOrdinal?.isSome && decide (Config.deferredSize ≤ deferred.length))
    || (decide (w.pool.free < c.cfg.segments) && !deferred.isEmpty)

/-- A tab pass starts (R131). -/
def Works.startPass (w : Works) (st : St) (trigger : PassTrigger) : Works :=
  w.upd st fun x => { x with pass := some { trigger := trigger, work := none }, activity := .tabPass }

/-- The forced-tab-pass check of an entry has called for no pass: the contour becomes current and ENTERING straight away
(R65). Its request follows at once, or is held until the next event, so that another station's grant can come between the
check and the request (R89): a free value decides which (log entry 33). -/
def Works.checkPassed (w : Works) (st : St) (id : Nat) (c : Contour) : Works :=
  let w1 := { w with freeCount := w.freeCount + 1 }
  if Config.requestFollows w.freeCount then w1.enterContour st id c
  else (w1.makeCurrent st id).upd st fun x => { x with kerfRequest := .held }

/-- The entry of the contour whose FIRST frame is at the head begins with its forced-tab-pass check (R65). -/
def Works.beginEntry (w : Works) (st : St) (id : Nat) : Option Works :=
  (w.contour? id).map fun c => if w.passForced st c then w.startPass st .forced else w.checkPassed st id c

/-- The pass starts on the contour at the head of the list (R133). -/
def Works.startPassContour (w : Works) (st : St) (id : Nat) (rest : List Nat) : Works :=
  let w1 := w.upd st fun x => { x with deferred := rest }
  match w.contour? id with
  | none => w1
  | some c =>
    match c.plan.mode with
    | .tab t approach _ =>
      (w1.modContour id fun c => c.setState .tabCutting).upd st fun x =>
        { x with
          current := some id
          pass := x.pass.map fun r =>
            { r with work := some { contour := id, t := t, approach := approach, step := .travel, next := 0 } } }
    | .plain | .catcher | .pause => w1

/-- The pass ends with the list empty, and its trigger decides what follows (R132): after a forced one the entry that waited
for it, in the same action (log entry 33). -/
def Works.endPass (w : Works) (st : St) (trigger : PassTrigger) : Works :=
  let w1 := w.upd st fun x => { x with pass := none, activity := .waiting }
  match trigger with
  | .tabs | .endProgram => w1
  | .forced =>
    match (w.station st).adm.queue with
    | e :: _ =>
      match w.contour? e.contour with
      | some c => w1.enterContour st e.contour c
      | none => w1
    | [] => w1

/-- The end of END_PROGRAM (R77): the MARK of its frame, the PROGRAM_END report, and the station is IDLE. -/
def Works.finishProgram (w : Works) (st : St) (seq : Seq) : Works :=
  let x := w.station st
  let w1 := (w.markReports st x.directiveMarks .done).upd st fun x => { x with directiveMarks := [] }
  let tag : Byte := match x.adm.program with
    | some p => p.tag
    | none => 0
  (w1.report st (.programEnd tag seq x.completed x.failed)).upd st Station.toIdle

/-- A directive leaves the queue, its mark still owed (R75, R76, R77). -/
def Works.takeDirective (w : Works) (st : St) (e : QEntry) (activity : Activity) : Works :=
  (w.consumeHead st).upd st fun x =>
    { x with directiveMarks := x.directiveMarks ++ e.mark.toList, activity := activity }

/-- A TRAVEL at the head (R75). -/
def Works.travelAct (w : Works) (st : St) (e : QEntry) : Option Works :=
  let x := w.station st
  match x.wire with
  | .unthreaded =>
    if x.moveRoom then
      some (w.issue st (.move .travel .forward 0 e.seg (.directive e.mark)) fun w => w.takeDirective st e .travelling)
    else none
  | .unknown | .broken =>
    if x.pair = [] then
      some (w.issue st (.wireCut .directive) fun w => w.upd st fun x => { x with activity := .travelling })
    else none
  | .threaded => none

/-- A TABS at the head starts: its mark is reported at once, and the pass runs over the list if it holds any (R76,
R131). -/
def Works.tabsAct (w : Works) (st : St) (e : QEntry) : Works :=
  let w1 := (w.consumeHead st).markReport? st e.mark .done
  if (w.station st).deferred = [] then w1.upd st fun x => { x with activity := .waiting } else w1.startPass st .tabs

/-- An END_PROGRAM at the head starts (R77). -/
def Works.endProgramAct (w : Works) (st : St) (e : QEntry) : Works :=
  let w1 := (w.takeDirective st e .waiting).upd st fun x => { x with endProgram := some e.seq }
  if (w.station st).deferred = [] then w1 else w1.startPass st .endProgram

/-- A head of the queue whose start issues no operation (R64): the FIRST frame of a contour begins its entry (R65), and a
TABS or END_PROGRAM starts (R76, R77). -/
def Works.headStarts (w : Works) (st : St) (e : QEntry) : Option Works :=
  match e.seg.kind with
  | .cutLine | .arcCw | .arcCcw => if e.first then w.beginEntry st e.contour else none
  | .tabs => some (w.tabsAct st e)
  | .endProgram => some (w.endProgramAct st e)
  | .travel | .dwell => none

/-- The head of the queue is looked at (R64). -/
def Works.headAct (w : Works) (st : St) (e : QEntry) : Option Works :=
  let x := w.station st
  match e.seg.kind with
  | .travel => w.travelAct st e
  | .dwell =>
    if x.pair = [] then some (w.issue st (.dwell e.seg.length e.mark) fun w => w.takeDirective st e .dwelling) else none
  | .cutLine | .arcCw | .arcCcw | .tabs | .endProgram => if x.pair = [] then w.headStarts st e else none

/-- What the station does without a current contour, in the order of R146: the wire cut a failure called for (R153), a
pass (R132), the end of the program (R77), the head of the queue (R64). -/
def Works.idleAct (w : Works) (st : St) : Option Works :=
  let x := w.station st
  if x.failureCutDue then
    if x.pair = [] then
      if x.wire = .unthreaded then some (w.upd st fun x => { x with failureCutDue := false })
      else some (w.issue st (.wireCut .failure) fun w => w.upd st fun x => { x with failureCutDue := false })
    else none
  else
    match x.pass with
    | some r =>
      if x.pair = [] then
        match x.deferred with
        | id :: rest => some (w.startPassContour st id rest)
        | [] => some (w.endPass st r.trigger)
      else none
    | none =>
      match x.endProgram with
      | some seq => if x.pair = [] then some (w.finishProgram st seq) else none
      | none =>
        match x.adm.queue with
        | [] => none
        | e :: _ => w.headAct st e

/-! ## One action, and all of them -/

/-- The oldest returned operation, issued again as soon as the pair has room (R61, R106). -/
def Works.reissue (w : Works) (st : St) (r : Returned) (rest : List Returned) : Option Works :=
  if (w.station st).room r.again then
    some (w.issue st r.again fun w => w.upd st fun x =>
      { x with
        returned := rest
        tc := match r.body with
          | .abandon => { x.tc with state := .abandoning }
          | .move _ _ _ _ _ | .thread _ | .confirm | .wireCut _ | .dwell _ _ => x.tc })
  else none

/-- What the work of the current contour asks for though a STOP is awaited: the reservation of an entry whose request is due
(R65), and the start-hole episode that an entry or a recovery asks for at the DONE of its travel (R66, R96, R124), whose
THREAD then waits (R97). -/
def Works.awaitingContourAct (w : Works) (st : St) (id : Nat) (c : Contour) : Option Works :=
  let x := w.station st
  if c.prog.pendingFailure = none ∧ x.tc.episode = none then
    match x.recovery with
    | some r => if r.step = .startHole then some (w.startEpisode st .startHole id c) else none
    | none =>
      if c.state = .entering then
        match x.kerfRequest with
        | .held => none
        | .due => some (w.dueRequest st id c)
        | .none => if x.activity = .threading then some (w.startEpisode st .startHole id c) else none
      else none
  else none

/-- What an ACTIVE station takes up while a STOP is awaited with the pair empty: only what issues no operation (R60, R64).
Returned operations (R61), the wire cut a failure calls for (R153) and a pass (R132) wait for the answer. -/
def Works.awaitingAct (w : Works) (st : St) : Option Works :=
  let x := w.station st
  if x.pair = [] ∧ x.returned = [] then
    match w.current? st with
    | some (id, c) => w.awaitingContourAct st id c
    | none =>
      if x.failureCutDue = true ∨ x.pass.isSome = true then none
      else
        match x.endProgram with
        | some seq => some (w.finishProgram st seq)
        | none =>
          match x.adm.queue with
          | [] => none
          | e :: _ => w.headStarts st e
  else none

/-- An ACTIVE station's next action: tail intake, the stopped work again, then the current contour or what stands at the
head (R61, R64, R146). While a STOP is awaited nothing is issued (R60). -/
def Works.activeAct (w : Works) (st : St) : Option Works :=
  match w.intakeAct st with
  | some w' => some w'
  | none =>
    let x := w.station st
    if x.stopAwaited then w.awaitingAct st
    else
      match x.returned with
      | r :: rest => w.reissue st r rest
      | [] =>
        match w.current? st with
        | some (id, c) => w.contourAct st id c
        | none => w.idleAct st

/-- A teardown's next action (R158, R159): with the drive at rest, the wire cut a THREADED or BROKEN wire asks for, or
the clearing of the program. -/
def Works.teardownAct (w : Works) (st : St) : Option Works :=
  let x := w.station st
  if x.pair = [] ∧ x.stopAwaited = false then
    match x.wire with
    | .threaded | .broken => some (w.issue st (.wireCut .teardown) fun w => w)
    | .unknown | .unthreaded => some (w.clearProgram st)
  else none

/-- The next thing the station's sequencer does of its own accord, if anything (R53). -/
def Works.act (st : St) (w : Works) : Option Works :=
  match (w.station st).state with
  | .idle => none
  | .active => w.activeAct st
  | .held => w.intakeAct st
  | .aborting => w.teardownAct st

/-- The next action after an event of station `st`: that station's, and without one that of the first station after it in
rotation that has any, as a station the arbiter has granted has (R90; log entry 20). -/
def Works.nextAct (w : Works) (st : St) : Option Works := (st :: rotation st).findSome? fun j => w.act j

/-! ## How many actions there can be: a number that every action lowers -/

/-- The part of `Station.weight` that the deferred tab list and a running pass make up. -/
def Station.listWeight (x : Station) : Nat :=
  match x.pass with
  | none => 24 * x.deferred.length
  | some _ => if x.deferred = [] then 1 else 24 * x.deferred.length - 10

/-- The part of it that the current contour makes up; `free id` says that contour `id` has no pending failure. -/
def Station.currentWeight (x : Station) (free : Nat → Bool) : Nat :=
  match x.current with
  | none => 4
  | some id => (if x.adm.queue.head?.any fun e => e.contour == id then 1 else 6) + (if free id then 1 else 0)

/-- The part of it that a recovery makes up. -/
def Station.recoveryWeight (x : Station) : Nat :=
  match x.recovery with
  | none => 0
  | some r => if r.step = .inKerf then 2 else 1

/-- A bound on the actions a station can take before the next event from outside. -/
def Station.weight (x : Station) (free : Nat → Bool) : Nat :=
  match x.state with
  | .idle => 0
  | .aborting => 8 + (if x.pair = [] ∧ (x.wire = .threaded ∨ x.wire = .broken) then 1 else 0)
  | .active | .held =>
    16 + 32 * x.adm.queue.length + x.listWeight + x.currentWeight free + x.recoveryWeight + (2 - x.pair.length)
      + (if x.tc.episode = none then 1 else 0) + (if x.failureCutDue then 1 else 0)
      + (if x.kerfRequest = .none then 0 else 1)

/-- Contour `id` is in the table and has no pending failure. -/
def Works.unfailed (w : Works) (id : Nat) : Bool := (w.contour? id).any fun c => c.prog.pendingFailure.isNone

/-- A bound on the actions all stations can take before the next event from outside (`Works.nextAct_lt`). -/
def Works.actionsLeft (w : Works) : Nat := (w.stations.toList.map fun x => x.weight w.unfailed).sum

/-- At most `fuel` actions after an event of station `st`. -/
def Works.settleFor : Nat → St → Works → Works
  | 0, _, w => w
  | fuel + 1, st, w =>
    match w.nextAct st with
    | none => w
    | some w' => Works.settleFor fuel st w'

/-- The stations act until none has an action left, the event's station first. -/
def Works.run (w : Works) (st : St) : Works := Works.settleFor w.actionsLeft st w

/-- A reservation request that has been held since an earlier event is due (R65, R89; log entry 33). -/
def Station.requestDue (x : Station) : Station :=
  { x with kerfRequest := if x.kerfRequest = .held then .due else x.kerfRequest }

/-- Every reservation request held since an earlier event is due. -/
def Works.requestsDue (w : Works) : Works :=
  { w with stations := PerStation.ofStations fun st => (w.station st).requestDue }

/-- An event of station `st` has happened: the stations act until none has an action left. A request held since an earlier
event is among the actions; one that is held now waits for the next event. -/
def Works.settle (w : Works) (st : St) : Works := w.requestsDue.run st

end Sys2Proof.Machine
end

