-- ==== Sys2Proof/Machine/Drive.lean ====
section
/-! DEFINITION. The drive's reports (R59 to R63, R68, R69, R71, R72, R122, R193) and the events that lines, alarms and the
catch wait deliver to a Station Sequencer (R73, R113, R115, R140, R141, R147, R148). -/

namespace Sys2Proof.Machine

/-! ## DONE -/

/-- The mark of a directive whose operation is done is reported, and the activity is WAITING again unless another
directive's operation is still outstanding (R75, R76, R78). -/
def Works.directiveDone (w : Works) (st : St) (mark : Option MarkRef) : Works :=
  let w1 := w.markReport? st mark .done
  w1.upd st fun x =>
    { x with
      directiveMarks := x.directiveMarks.filter fun m => !(mark == some m)
      activity := if x.pair = [] then .waiting else x.activity }

/-- What the completion of an operation does, by what it ran (R66, R68, R75, R76, R124, R133, R136). The operation has
left the pair. -/
def Works.opDone (w : Works) (st : St) (body : OpBody) : Works :=
  let w1 := w.upd st fun x => x.followPlace body
  match body with
  | .move _ _ _ _ (.mainEntry id k) => w1.entryCut st id k
  | .move _ _ _ _ (.tailEntry id k) => w1.tailCut st id k
  | .move _ _ _ _ (.traverse _ _) => w1
  | .move _ _ _ _ .entryTravel => w1.upd st fun x => { x with activity := .threading }
  | .move _ _ _ _ .passTravel => w1.modPass st fun p => { p with step := .threading }
  | .move _ _ _ _ .recoveryTravel => w1.modRecovery st fun r => { r with step := .startHole }
  | .move _ _ _ _ (.directive mark) | .dwell _ mark => w1.directiveDone st mark
  | .thread _ | .confirm | .abandon | .wireCut _ => w1

/-- A MOVE or DWELL: what a DONE may name (R59). -/
def OpBody.answersDone : OpBody → Bool
  | .move _ _ _ _ _ | .dwell _ _ => true
  | .thread _ | .confirm | .abandon | .wireCut _ => false

/-- The ordinal an underrun awaits, when every condition of R71 holds. -/
def Works.underrunOrdinal (w : Works) (st : St) : Option (Nat × Nat) :=
  let x := w.station st
  match w.current? st with
  | none => none
  | some (id, c) =>
    if x.state = .active ∧ x.pair = [] ∧ x.wire = .threaded ∧ c.state = .cutting ∧ x.activity = .cutting
        ∧ c.lowestPending = none ∧ c.atTab = false ∧ (x.adm.queue.head?.all fun e => e.contour != id) = true then
      some (id, c.h + 1)
    else none

/-- The underrun test after a DONE that left the pair empty (R71). -/
def Works.underrun (w : Works) (st : St) : Works :=
  match w.underrunOrdinal st, (w.station st).adm.program with
  | some (id, k), some p =>
    if (w.station st).underrunReported then w
    else (w.report st (.underrun id k p.consumed)).upd st fun x => { x with underrunReported := true }
  | _, _ => w

/-- DONE (R59, R68): the oldest outstanding MOVE or DWELL is complete; a DONE that names anything else is drive loss. -/
def Works.done (w : Works) (st : St) (issue : Byte) : Works :=
  match (w.station st).pair with
  | op :: rest =>
    if op.issue = issue ∧ op.body.answersDone = true then
      let w1 := (w.upd st fun x => { x with pair := rest }).opDone st op.body
      let w2 := w1.settle st
      if rest = [] then w2.underrun st else w2
    else (w.driveLoss st).settle st
  | [] => (w.driveLoss st).settle st

/-! ## STOPPED and FAULT -/

/-- Every outstanding operation ends and leaves the pair, the oldest at progress `p`, the other unstarted (R60). -/
def Works.pairEnds (w : Works) (st : St) (p : Nat) : Works :=
  let ops := (w.station st).pair
  let w1 := w.upd st fun x => { x with pair := [], stopAwaited := false }
  match ops with
  | [] => w1
  | op :: rest => rest.foldl (fun w o => w.opEnds st o.body 0) (w1.opEnds st op.body p)

/-- A charged break that awaited this answer is settled (R115, R116). -/
def Works.settleAwaited (w : Works) (st : St) (position : Option (Nat × Nat)) (code : Option Byte) : Works :=
  if (w.station st).breakPending then w.settleBreak st position code else w

/-- STOPPED (R59, R60): the answer to an awaited STOP, naming the oldest outstanding operation or none. -/
def Works.stopped (w : Works) (st : St) (issue : Option Byte) (progress : Nat) : Works :=
  let x := w.station st
  match issue, x.pair with
  | none, _ => if x.stopAwaited then (((w.pairEnds st 0).settleAwaited st none none).settle st) else w
  | some n, op :: _ =>
    if x.stopAwaited ∧ op.issue = n then
      let w1 := w.upd st fun x => x.followPlace op.body
      let w2 := (w1.pairEnds st progress).settleAwaited st (op.body.ordinal?.map fun k => (k, progress)) none
      w2.settle st
    else (w.driveLoss st).settle st
  | some _, [] => (w.driveLoss st).settle st

/-- FAULT (R59, R62): as a STOPPED naming the oldest outstanding operation, and DRIVE_FAULT is added. -/
def Works.fault (w : Works) (st : St) (issue : Byte) (progress : Nat) (code : Byte) : Works :=
  match (w.station st).pair with
  | op :: _ =>
    if op.issue = issue then
      let w1 := w.upd st fun x => x.followPlace op.body
      let w2 := (w1.pairEnds st progress).settleAwaited st (op.body.ordinal?.map fun k => (k, progress)) (some code)
      (w2.addHolds st (Holds.only .driveFault) (some code) none).settle st
    else (w.driveLoss st).settle st
  | [] => (w.driveLoss st).settle st

/-! ## CUT -/

/-- The CUT report of the wire cut that ends a main pass: tail intake, unless a failure is pending (R69, R154). -/
def Works.mainEndCut (w : Works) (st : St) : Works :=
  match w.current? st with
  | some (id, c) =>
    if c.state = .cutting ∧ c.mainEnded = true ∧ c.prog.pendingFailure = none then
      (w.modContour id fun c => c.setState .tailIntake).upd st fun x => { x with activity := .tailIntake }
    else w
  | none => w

/-- The CUT report of a closing wire cut (R72, R74, R137): CUT received, PART_REMOVAL under PAUSE as the plan then reads,
and completion if the confirmation is satisfied. -/
def Works.closingCut (w : Works) (st : St) : Works :=
  match w.current? st, (w.station st).closing with
  | some (_, c), some _ =>
    let w1 := w.upd st fun x => { x with closing := x.closing.map fun k => { k with cutReceived := true } }
    let w2 := if c.plan.confirmRequired = .pause then w1.addHolds st (Holds.only .partRemoval) none none else w1
    w2.tryComplete st
  | _, _ => w

/-- The recovery's path is chosen at its wire cut's CUT report (R122). -/
def Works.choosePath (w : Works) (st : St) : Works :=
  match w.current? st, (w.station st).recovery with
  | some (_, c), some r =>
    if r.step = .wireCut then
      if c.cfg.inKerf = true ∧ r.place = .inCut then
        w.modRecovery st fun r => { r with path := some .inKerf, step := .inKerf }
      else w.modRecovery st fun r => { r with path := some .startHole, step := .travel }
    else w
  | _, _ => w

/-- CUT (R59): the outstanding WIRE_CUT is complete and the wire is UNTHREADED; with none outstanding it is
disregarded. -/
def Works.cutReport (w : Works) (st : St) : Works :=
  match (w.station st).pair with
  | op :: rest =>
    match op.body with
    | .wireCut purpose =>
      let w1 := w.upd st fun x => { x with pair := rest }.setWire .unthreaded
      let w2 := match purpose with
        | .mainEnd => w1.mainEndCut st
        | .closing => w1.closingCut st
        | .recovery => w1.choosePath st
        | .entry | .directive | .failure | .pass | .teardown => w1
      w2.settle st
    | .move _ _ _ _ _ | .thread _ | .confirm | .abandon | .dwell _ _ => w
  | [] => w

/-! ## Every report of a drive -/

/-- A report of the drive is taken (R59, R104). -/
def Works.takeReport (w : Works) (st : St) (r : DriveReport) : Works :=
  match r with
  | .done issue => w.done st issue
  | .stopped issue progress => w.stopped st issue progress.toNat
  | .fault issue progress code => w.fault st issue progress.toNat code
  | .probe result => (w.probe st result).settle st
  | .probeEnd => (w.probeEnd st).settle st
  | .threaded => (w.threaded st).settle st
  | .abandoned => (w.abandoned st).settle st
  | .cut => w.cutReport st

/-- A message that passed the four tests of R193: the link status is UP, and the message is taken. -/
def Works.portMessage (w : Works) (st : St) (r : DriveReport) : Works :=
  (w.upd st fun x => { x with linkUp := true }).takeReport st r

/-- The port's link goes DOWN (R63, R193). -/
def Works.portDown (w : Works) (st : St) : Works :=
  ((w.upd st fun x => { x with linkUp := false }).driveLoss st).settle st

/-! ## Lines, alarms and the catch wait -/

/-- A BREAK edge on a THREADED wire of a working station is charged (R113, R115): stopped when a motion operation is
outstanding and settled at the STOP's answer, otherwise settled at once. -/
def Works.chargeBreak (w : Works) (st : St) : Works :=
  let w1 := w.upd st fun x => { x with wire := .broken, breakPending := true }
  if (w.station st).pair.any fun o => o.body.isCutOrKerf then w1.upd st Station.callStop
  else (w1.settleBreak st none none).settle st

/-- A BREAK edge delivered to the sequencer and the threading controller (R101, R113). -/
def Works.breakEdge (w : Works) (st : St) : Works :=
  let x := w.station st
  match x.wire with
  | .threaded =>
    match x.state with
    | .active | .held => w.chargeBreak st
    | .aborting => w.upd st fun x => x.setWire .broken
    | .idle => w
  | .unknown | .unthreaded | .broken => w.breakInEpisode st

/-- A tabbed part should be held: the current contour is in CUTTING under a TAB plan, or in TAB_CUTTING (R141, R148). -/
def Works.tabHeld (w : Works) (st : St) : Bool :=
  match w.current? st with
  | none => false
  | some (_, c) => (c.state == .cutting && c.plan.tabOrdinal?.isSome) || c.state == .tabCutting

/-- A CATCH edge delivered to the sequencer (R73, R141, R148). -/
def Works.catchEdge (w : Works) (st : St) : Works :=
  let x := w.station st
  if x.working = false then w
  else if x.catchWait.isSome then ((w.upd st Station.satisfy).tryComplete st).settle st
  else if w.tabHeld st then w.addHolds st (Holds.only .straySlug) none none
  else w

/-- A GUARD edge delivered to the sequencer (R147). -/
def Works.guardEdge (w : Works) (st : St) : Works := w.addHolds st (Holds.only .guard) none none

/-- A tail CUT move (R140). -/
def OpBody.isTailMove : OpBody → Bool
  | .move _ _ _ _ (.tailEntry _ _) => true
  | .move _ _ _ _ (.mainEntry _ _) | .move _ _ _ _ (.traverse _ _) | .move _ _ _ _ .entryTravel
  | .move _ _ _ _ .passTravel | .move _ _ _ _ .recoveryTravel | .move _ _ _ _ (.directive _)
  | .thread _ | .confirm | .abandon | .wireCut _ | .dwell _ _ => false

/-- A gap alarm rise delivered to the sequencer (R140, R147): SLUG during a tail move; otherwise GAP when gap hold is ON
and the current contour is in CUTTING. -/
def Works.gapRise (w : Works) (st : St) : Works :=
  let x := w.station st
  if x.pair.any fun o => o.body.isTailMove then w.addHolds st (Holds.only .slug) none none
  else
    match w.current? st with
    | some (_, c) =>
      if x.tc.params.gapHold = true ∧ c.state = .cutting then w.addHolds st (Holds.only .gap) none none else w
    | none => w

/-- The catch wait's time left (R187): the expiry less the time base, both modulo 2^32. A wait that has fallen due and
not yet been taken stands a little past its expiry, which shows as more than the longest catch timeout. -/
def catchRemaining (expiry now : Time) : Nat :=
  let left := (expiry - now).toNat
  if left ≤ Config.longestCatchWait then left else 0

/-- The catch wait expires once it has fallen due (R73; log entry 11). -/
def Works.catchExpiry (w : Works) (st : St) : Works :=
  match (w.station st).catchWait with
  | none => w
  | some e =>
    if catchRemaining e w.time = 0 then
      (w.upd st fun x => { x with catchWait := none }).addHolds st (Holds.only .noCatch) none none
    else w

end Sys2Proof.Machine
end

