-- ==== Sys2Proof/Machine/Admission.lean ====
section
/-! DEFINITION. Path Admission: the checks, acceptance, absorption and refusal of a path frame (chapter 3). -/

namespace Sys2Proof.Machine

/-- The kind of a frame, TABS standing for a code that names none: such a frame fails check 6 before its kind is used. -/
def PathFrame.kindD (f : PathFrame) : PathKind := (pathKindOf f.kind).getD .tabs

/-- A cut frame. -/
def PathFrame.isCut (f : PathFrame) : Bool := f.kindD.isCut

/-- Check 9 (R39): the named contour's record is FREE or is another station's. -/
def Works.foreign (w : Works) (st : St) (id : Nat) : Bool :=
  match w.contour? id with
  | none => true
  | some c => c.cfg.station != st

/-- Check 10 (R41): the frame breaks the chain of its contour or the order of the program. -/
def Works.breaksChain (w : Works) (st : St) (f : PathFrame) : Bool :=
  let isOpen := (w.station st).adm.openContour
  if f.isCut then
    match w.contour? f.contour.toNat with
    | none => true
    | some c =>
      (if f.isFirst then isOpen.isSome || c.state != .defined else isOpen != some f.contour.toNat)
        || f.ordinal.toNat != c.prog.arrived + 1
        || f.isLast != decide (f.ordinal.toNat = c.cfg.segments)
  else isOpen.isSome

/-- The checks of admission in their order (R39): the reason of the first that fails, or none. -/
def Works.judge (w : Works) (st : St) (f : PathFrame) : Option RefusalReason :=
  let x := w.station st
  match x.state, x.adm.program with
  | .idle, _ => some .noProgram
  | .aborting, _ => some .aborting
  | .active, none | .held, none => some .noProgram
  | .active, some p | .held, some p =>
    if p.closed then some .closed
    else if f.tag ≠ p.tag then some .stale
    else if f.seq ≠ p.expected then some .seq
    else if !f.fieldsOk then some .badField
    else if Config.queueSize ≤ x.adm.queue.length then some .full
    else if f.isMarked && x.adm.handles == 0xFF then some .markBusy
    else if f.isCut && w.foreign st f.contour.toNat then some .undefined
    else if w.breaksChain st f then some .chain
    else none

/-- A refused frame (R44): one REFUSAL report and no other effect. -/
def Works.refuse (w : Works) (st : St) (f : PathFrame) (reason : RefusalReason) : Works :=
  let x := w.station st
  w.report st (.refusal f.seq reason (if x.state = .idle then none else x.adm.program.map Program.expected) x.credits)

/-- The first FREE handle from last assigned + 1 upward, modulo 8 (R47). -/
def Admission.freeHandle (a : Admission) : Option (Fin 8) :=
  ([1, 2, 3, 4, 5, 6, 7, 0] : List (Fin 8)).findSome? fun k =>
    let h := a.lastAssigned + k
    if a.handles.getLsbD h.val then none else some h

/-- Handle `h` is given out (R47). -/
def Admission.hold (a : Admission) (h : Fin 8) : Admission :=
  { a with handles := a.handles ||| bit8 h, lastAssigned := h }

/-- The entry an accepted frame becomes (R45). -/
def PathFrame.entry (f : PathFrame) (handle : Option (Fin 8)) : QEntry where
  seq := f.seq
  first := f.isFirst
  last := f.isLast
  handle := handle
  contour := f.contour.toNat
  ordinal := f.ordinal.toNat
  seg := f.segment f.kindD

/-- The handle an accepted frame is given, if it is marked (R47). -/
def PathFrame.handleFrom (f : PathFrame) (a : Admission) : Option (Fin 8) := if f.isMarked then a.freeHandle else none

/-- Admission's own state after an acceptance (R42): expected sequence, handle, open contour, program. -/
def Admission.accept (a : Admission) (f : PathFrame) : Admission :=
  let a1 := match f.handleFrom a with
    | some h => a.hold h
    | none => a
  { a1 with
    program := a.program.map fun p =>
      { p with expected := p.expected + 1, closed := p.closed || f.kindD == .endProgram }
    openContour :=
      if f.isCut then if f.isLast then none else if f.isFirst then some f.contour.toNat else a.openContour
      else a.openContour }

/-- The contour's record after one of its frames is accepted (R42): arrived rises, and FIRST makes it QUEUED. -/
def Contour.arrive (c : Contour) (first : Bool) : Contour :=
  { c with
    state := if first then .queued else c.state
    prog := { c.prog with arrived := c.prog.arrived + 1 } }

/-- The frame is absorbed and not queued (R43): a cut frame whose contour's record is FAILED. -/
def Works.absorbs (w : Works) (f : PathFrame) : Bool :=
  f.isCut && (w.contour? f.contour.toNat).any fun c => c.state == .failed

/-- A frame that passed every check is accepted (R42), and joins the queue or is absorbed (R43). -/
def Works.accept (w : Works) (st : St) (f : PathFrame) : Works :=
  let entry := f.entry (f.handleFrom (w.station st).adm)
  let w1 := w.upd st fun x => { x with adm := x.adm.accept f }
  let w2 := if f.isCut then w1.modContour f.contour.toNat fun c => c.arrive f.isFirst else w1
  if w.absorbs f then
    ((w2.upd st fun x => { x with adm := x.adm.setConsumed f.seq }).progressUpdate st).markReport? st entry.mark
      .discarded
  else (w2.upd st fun x => { x with adm := { x.adm with queue := x.adm.queue ++ [entry] } }).settle st

/-- A path frame of station `st` is judged, and refused or accepted (R39). -/
def Works.takePathFrame (w : Works) (st : St) (f : PathFrame) : Works :=
  match w.judge st f with
  | some reason => w.refuse st f reason
  | none => w.accept st f

end Sys2Proof.Machine
end

