-- ==== Sys2Proof/Machine/Link.lean ====
section
/-! DEFINITION. The Cell Link Interface: link errors, the management buffer, the dispatch of requests, replies, and the
arbiter of the upstream lane (chapter 11). -/

namespace Sys2Proof.Machine

/-- The works change. -/
def State.onWorks (s : State) (f : Works → Works) : State := { s with works := f s.works }

/-! ## The upstream lane (R183, R185) -/

/-- A report at the head of a queue starts to be sent: the report queues are served in rotation after the last station
served (R183). -/
def State.sendReport (s : State) : State :=
  let ready := (rotation s.lastServed).findSome? fun st =>
    match (s.works.station st).reports with
    | [] => none
    | r :: rest => some (st, r, rest)
  match ready with
  | none => s
  | some (st, r, rest) =>
    { s with
      lane := some (.report st r)
      lastServed := st
      works := s.works.upd st fun x => { x with reports := rest } }

/-- The pending notice is built and sent, or withdrawn when no flag is both set and enabled, and the arbiter goes on to
the reports (R185). -/
def State.sendNotice (s : State) : State :=
  let u := s.works.notices
  let s1 := s.onWorks fun w => { w with notices := { u with pending := false } }
  if u.flags &&& u.enables = 0 then s1.sendReport
  else { s1 with lane := some (.notice (u.flags &&& u.enables) s.works.time) }

/-- The arbiter chooses the next frame when the lane is free (R183): the oldest built reply, then a pending notice, then
a report. It runs once, at the end of each command (log entry 9). -/
def State.upstream (s : State) : State :=
  match s.lane with
  | some _ => s
  | none =>
    match s.replies with
    | r :: rest => { s with lane := some (.reply r), replies := rest }
    | [] => if s.works.notices.pending then s.sendNotice else s.sendReport

/-- The outcome of a command: its effect, and then the arbiter's choice. -/
def State.finish (s : State) : Host.Outcome State Fault Refusal := .next s.upstream

/-! ## Link errors and the management buffer (R177, R178) -/

/-- A link error: it is counted, and LINK_ERROR is set (R177). -/
def State.linkError (s : State) : State :=
  { s with linkErrors := saturate Config.countLimit s.linkErrors, works := s.works.raise flagLinkError }

/-- A PATH frame goes to the admission of the station it names; above 3 it is a link error (R38, R178). -/
def State.takePath (s : State) (f : PathFrame) : State :=
  match stationOf f.station with
  | some st => s.onWorks fun w => w.takePathFrame st f
  | none => s.linkError

/-- A MGMT frame joins the management buffer; a transaction number of 0 or 255, or a full buffer, is a link error
(R178). -/
def State.takeMgmt (s : State) (f : MgmtFrame) : State :=
  if f.tn = 0 ∨ f.tn = 255 ∨ Config.mgmtBufferSize ≤ s.mgmt.length then s.linkError
  else { s with mgmt := s.mgmt ++ [f] }

/-- A downstream frame that passed the frame check is dispatched by its class (R178). -/
def State.takeFrame (s : State) (f : DownFrame) : State :=
  match f with
  | .path f => s.takePath f
  | .mgmt f => s.takeMgmt f

/-! ## Requests and replies (R179, R180) -/

/-- Places of the reply queue reserved for deferred replies (R181). -/
def State.reserved (s : State) : Nat :=
  (if s.gap.outstanding.isSome then 1 else 0) + (if s.store.writing.isSome then 1 else 0)

/-- The reply queue has room for one more reply (R180). -/
def State.replyRoom (s : State) : Bool := decide (s.replies.length + s.reserved < Config.replyPlaces)

/-- A reply to a request frame joins the tail of the reply queue (R180). -/
def State.answer (s : State) (f : MgmtFrame) (status : ReplyStatus) (data : ReplyData) : State :=
  { s with
    replies := s.replies ++ [{ tn := f.tn, unit := f.unit, request := f.request, status := status, data := data }] }

/-- The oldest frame of a buffer that satisfies `p`, and the buffer without it (R179). -/
def takeOldest (p : MgmtFrame → Bool) : List MgmtFrame → Option (MgmtFrame × List MgmtFrame)
  | [] => none
  | f :: rest => if p f then some (f, rest) else (takeOldest p rest).map fun r => (r.1, f :: r.2)

/-- The oldest buffered frame of a unit (R179). -/
def State.oldestOf (s : State) (u : MgmtUnit) : Option (MgmtFrame × List MgmtFrame) :=
  takeOldest (fun f => f.unit == u.code) s.mgmt

/-- The dispatch's checks of a frame a unit has taken (R179): authority and length; then the unit's own rule. -/
def State.dispatch (s : State) (f : MgmtFrame) (len : Nat) (h : Authority → MgmtFrame → State → State) : State :=
  match authorityOf f.authority with
  | none => s.answer f .badReq .empty
  | some a => if f.args.length = len then h a f s else s.answer f .badReq .empty

/-- Unit `u` takes its oldest frame, if that frame is this request and the reply queue has room (R179); otherwise the
command finds nothing to take (log entry 2). -/
def State.serve (s : State) (u : MgmtUnit) (request : Byte) (len : Nat) (h : Authority → MgmtFrame → State → State) :
    State :=
  match s.oldestOf u with
  | none => s
  | some (f, rest) =>
    if f.request = request ∧ s.replyRoom = true then { s with mgmt := rest }.dispatch f len h else s

/-- A frame whose request code names none of the unit's requests is answered BADREQ (R179). -/
def State.serveUnknown (s : State) (u : MgmtUnit) : State :=
  match s.oldestOf u with
  | none => s
  | some (f, rest) =>
    if u.requests ≤ f.request.toNat ∧ s.replyRoom = true then { s with mgmt := rest }.answer f .badReq .empty else s

/-- The dispatch of the link takes its oldest frame, one whose unit field names none of the nine, and answers BADREQ
(R179). -/
def State.serveUnknownUnit (s : State) : State :=
  match takeOldest (fun f => decide (8 < f.unit.toNat)) s.mgmt with
  | none => s
  | some (f, rest) => if s.replyRoom then { s with mgmt := rest }.answer f .badReq .empty else s

/-! ## The commands of the link -/

/-- PART_RESET (R17, R51, R80, R94, R191): the pins keep their levels; the calibration store keeps its contents, but a
write in progress ends with the store invalid (R189) and its gains free values (log entry 1). The lane is left free
(R191; log entry 9). -/
def execPartReset (s : State) : Host.Outcome State Fault Refusal :=
  let n := s.works.freeCount
  let torn : PerStation Nat := PerStation.ofStations fun st => (Config.tornGain n st).toNat
  match s.store.writing with
  | none => .next (State.afterReset s.pending s.lines s.store n)
  | some _ =>
    .next (State.afterReset s.pending s.lines { gains := torn, valid := false, writing := none } (n + 1))

/-- PATH_FRAME (R39). -/
def execPathFrame (f : PathFrame) (s : State) : Host.Outcome State Fault Refusal := (s.takePath f).finish

/-- MGMT_FRAME (R178). -/
def execMgmtFrame (f : MgmtFrame) (s : State) : Host.Outcome State Fault Refusal := (s.takeMgmt f).finish

/-- LINK_ERROR (R177): the bytes between two delimiters. Bytes that do form a frame are dispatched (log entry 19). -/
def execLinkError (bytes : List Byte) (s : State) : Host.Outcome State Fault Refusal :=
  match receiveFrame bytes with
  | none => s.linkError.finish
  | some f => (s.takeFrame f).finish

/-- UNKNOWN_UNIT_REQUEST (R179). -/
def execUnknownUnitRequest (s : State) : Host.Outcome State Fault Refusal := s.serveUnknownUnit.finish

/-- UNKNOWN_REQUEST (R179). -/
def execUnknownRequest (u : MgmtUnit) (s : State) : Host.Outcome State Fault Refusal := (s.serveUnknown u).finish

/-- UPSTREAM_FRAME_SENT (R183): the lane is free, and the arbiter chooses. With no frame on the lane the row's event does not
arise; the command then only lets the arbiter look at the lane (log entry 36). -/
def execUpstreamFrameSent (s : State) : Host.Outcome State Fault Refusal := { s with lane := none }.finish

end Sys2Proof.Machine
end

