-- ==== Sys2Proof/Machine/StationUnit.lean ====
section
/-! DEFINITION. The requests of the STATION unit (R36, R79, R111, R149 to R157). -/

namespace Sys2Proof.Machine

/-- A reply that carries the station state and hold reason set as they stand after the request (R149). -/
def State.answerStation (s : State) (f : MgmtFrame) (st : St) (status : ReplyStatus) : State :=
  s.answer f status (.station (s.works.station st).state (s.works.station st).holds)

/-- A station request: a station number above 3 is refused RANGE, and the reply then has no results (R149; log entry
26). -/
def stationRequest (h : St → MgmtFrame → State → State) (_ : Authority) (f : MgmtFrame) (s : State) : State :=
  match stationOf (byteAt f.args 0) with
  | none => s.answer f .range .empty
  | some st => h st f s

/-- A station request that is judged by the works: the effect when it is accepted, or the status that refuses it. -/
def stationWork (judge : St → State → Except ReplyStatus Works) (st : St) (f : MgmtFrame) (s : State) : State :=
  match judge st s with
  | .ok w => { s with works := w }.answerStation f st .ok
  | .error status => s.answerStation f st status

/-! ## BEGIN_PROGRAM (R36) -/

/-- Admission after an accepted BEGIN_PROGRAM (R36). -/
def Admission.begin (tag : Byte) (first : Seq) : Admission where
  program := some { tag := tag, first := first, expected := first, consumed := first - 1, closed := false }
  openContour := none
  queue := []
  handles := 0
  lastAssigned := 7

/-- A report that was built before the latest accepted BEGIN_PROGRAM is not of the present program (R46). -/
def Report.past (r : Report) : Report :=
  match r.body with
  | .progress tag consumed credits _ => { r with body := .progress tag consumed credits false }
  | _ => r

/-- The station after an accepted BEGIN_PROGRAM (R36, R52). -/
def Station.begin (x : Station) (tag : Byte) (first : Seq) : Station :=
  { x with
    adm := Admission.begin tag first
    state := .active
    activity := .waiting
    completed := 0
    failed := 0
    underrunReported := false
    reports := x.reports.map Report.past }

/-- The checks of BEGIN_PROGRAM after the station number, and its effect (R36). -/
def beginProgram (st : St) (f : MgmtFrame) (s : State) : State :=
  let tag := byteAt f.args 1
  let first := word16At f.args 2
  if tag = 0 then s.answer f .range .empty
  else if (s.works.station st).state ≠ .idle then s.answer f .state .empty
  else if (s.lines.get st).breakLine.enable = false then s.answer f .state .empty
  else (s.onWorks fun w => w.upd st fun x => x.begin tag first).answer f .ok (.opened tag first Config.queueSize)

/-- BEGIN_PROGRAM (R36). -/
def execBeginProgram (s : State) : Host.Outcome State Fault Refusal :=
  (s.serve .station 0 4 (stationRequest beginProgram)).finish

/-! ## HOLD, RESUME, CONFIRM (R150 to R152) -/

/-- HOLD (R150). -/
def judgeHold (st : St) (s : State) : Except ReplyStatus Works :=
  if (s.works.station st).working then .ok (s.works.addHolds st (Holds.only .request) none none) else .error .state

/-- HOLD (R150). -/
def execHold (s : State) : Host.Outcome State Fault Refusal :=
  (s.serve .station 1 1 (stationRequest (stationWork judgeHold))).finish

/-- The active level of a line (R173). -/
def Edge.activeLevel : Edge → Level
  | .rising => .high
  | .falling => .low

/-- The level is the active level (R173). -/
def SenseLine.isActive (l : SenseLine) : Bool := l.level == l.edge.activeLevel

/-- RESUME (R151): the sequencer then goes on (R146). -/
def judgeResume (st : St) (s : State) : Except ReplyStatus Works :=
  let x := s.works.station st
  if x.state ≠ .held then .error .state
  else if x.holds.guard = true ∧ (s.lines.get st).guardLine.isActive = true then .error .locked
  else if x.holds.inter Holds.resumable = Holds.none then .error .state
  else .ok (((s.works.removeHolds st Holds.resumable).resumeIfClear st .resume).settle st)

/-- RESUME (R151). -/
def execResume (s : State) : Host.Outcome State Fault Refusal :=
  (s.serve .station 2 1 (stationRequest (stationWork judgeResume))).finish

/-- CONFIRM (R152): the reason goes, the closing is satisfied and may complete, and the station may resume. -/
def judgeConfirm (st : St) (s : State) : Except ReplyStatus Works :=
  let x := s.works.station st
  if x.working = false ∨ x.holds.inter Holds.confirmable = Holds.none then .error .state
  else
    let w1 := (s.works.removeHolds st Holds.confirmable).upd st Station.satisfy
    .ok (((w1.tryComplete st).resumeIfClear st .confirm).settle st)

/-- CONFIRM (R152). -/
def execConfirm (s : State) : Host.Outcome State Fault Refusal :=
  (s.serve .station 3 1 (stationRequest (stationWork judgeConfirm))).finish

/-! ## SKIP_CONTOUR and RETRY (R155, R156) -/

/-- The current contour when it has a pending failure and the station is ACTIVE or HELD (R155, R156). -/
def Works.failed? (w : Works) (st : St) : Option (Nat × Contour) :=
  if (w.station st).working then (w.current? st).filter fun p => p.2.prog.pendingFailure.isSome else none

/-- An accepted SKIP_CONTOUR (R155). -/
def Works.skipContour (w : Works) (st : St) (id : Nat) : Works :=
  let w1 := (w.removeHolds st (Holds.only .contourFailed)).failSkip st id .skippedByRequest
  (w1.resumeIfClear st .skipContour).settle st

/-- SKIP_CONTOUR (R155): an accepted one's reply carries the contour and its outcome cause. -/
def skipContour (st : St) (f : MgmtFrame) (s : State) : State :=
  match s.works.failed? st with
  | none => s.answerStation f st .state
  | some (id, _) =>
    let s1 := s.onWorks fun w => w.skipContour st id
    let x := s1.works.station st
    s1.answer f .ok (.skipped x.state x.holds id .skippedByRequest)

/-- SKIP_CONTOUR (R155). -/
def execSkipContour (s : State) : Host.Outcome State Fault Refusal :=
  (s.serve .station 4 1 (stationRequest skipContour)).finish

/-- The wire cut that ended the main pass has completed: the main pass has ended, the wire is UNTHREADED, and no such
wire cut is outstanding or returned (R156). -/
def Station.mainEndDone (x : Station) (c : Contour) : Bool :=
  c.mainEnded && x.wire == .unthreaded && !(x.pair.any fun o => o.body.isWireCut)
    && !(x.returned.any fun r => r.body.isWireCut)

/-- The work a RETRY takes up when a recovery record is present and no CUT or KERF move is needed (R156). -/
def Works.retryClosing (w : Works) (st : St) (id : Nat) (c : Contour) : Works :=
  let w1 := w.upd st fun x => { x with recovery := none }
  let w2 := w1.upd st fun x => { x with activity := w1.workActivity st }
  match c.state with
  | .cutting =>
    if (w.station st).mainEndDone c then
      (w2.modContour id fun c => c.setState .tailIntake).upd st fun x => { x with activity := .tailIntake }
    else w2
  | .closing => w2.tryComplete st
  | .defined | .queued | .entering | .tailIntake | .deferred | .tabCutting | .complete | .failed | .aborted => w2

/-- The work a RETRY takes up (R156). -/
def Works.takeUp (w : Works) (st : St) (id : Nat) (c : Contour) : Works :=
  match (w.station st).recovery with
  | none =>
    match c.state with
    | .entering => w.upd st fun x => { x with activity := .entering }
    | .tabCutting => w.modPass st fun p => { p with step := .travel, next := 0 }
    | .defined | .queued | .cutting | .tailIntake | .deferred | .closing | .complete | .failed | .aborted => w
  | some _ =>
    if c.needsCutting then
      let step : RecoveryStep := if (w.station st).wire = .unthreaded then .travel else .due
      w.modRecovery st fun r => { r with place := .startHole, path := some .startHole, step := step, next := none }
    else w.retryClosing st id c

/-- An accepted RETRY (R156). -/
def Works.retry (w : Works) (st : St) (id : Nat) (c : Contour) : Works :=
  let w1 := w.modContour id fun c => { c with prog := { c.prog with pendingFailure := none, breaks := 0 } }
  let w2 := (w1.removeHolds st (Holds.only .contourFailed)).takeUp st id c
  (w2.resumeIfClear st .retry).settle st

/-- RETRY (R156). -/
def judgeRetry (st : St) (s : State) : Except ReplyStatus Works :=
  match s.works.failed? st with
  | none => .error .state
  | some (id, c) => .ok (s.works.retry st id c)

/-- RETRY (R156). -/
def execRetry (s : State) : Host.Outcome State Fault Refusal :=
  (s.serve .station 5 1 (stationRequest (stationWork judgeRetry))).finish

/-! ## ABORT (R157) -/

/-- ABORT (R157). -/
def judgeAbort (st : St) (s : State) : Except ReplyStatus Works :=
  match (s.works.station st).state with
  | .idle => .error .state
  | .aborting => .ok s.works
  | .active | .held => .ok ((s.works.startTeardown st .request).settle st)

/-- ABORT (R157). -/
def execAbort (s : State) : Host.Outcome State Fault Refusal :=
  (s.serve .station 6 1 (stationRequest (stationWork judgeAbort))).finish

/-! ## STATUS and SET_STATION (R79, R111) -/

/-- A catch wait's time to expiry in tenths of a second, rounded up; 0 when disarmed (12.3). -/
def catchTenths (wait : Option Time) (now : Time) : Nat :=
  match wait with
  | none => 0
  | some e => (catchRemaining e now + (Config.tenth - 1)) / Config.tenth

/-- The values of a STATUS reply (R79). -/
def Station.view (x : Station) (now : Time) : StatusView where
  state := x.state
  activity := x.activity
  wire := x.wire
  holds := x.holds
  current := x.current
  pair := x.pair
  stopAwaited := x.stopAwaited
  returned := x.returned.length
  closing := x.closing
  catchTenths := catchTenths x.catchWait now
  deferred := x.deferred
  completed := x.completed
  failed := x.failed
  lost := x.lost
  program := x.adm.program
  credits := x.credits
  handles := x.adm.handles

/-- STATUS (R79). -/
def statusOf (st : St) (f : MgmtFrame) (s : State) : State :=
  s.answer f .ok (.stationStatus ((s.works.station st).view s.works.time))

/-- STATUS (R79). -/
def execStatus (s : State) : Host.Outcome State Fault Refusal :=
  (s.serve .station 7 1 (stationRequest statusOf)).finish

/-- An accepted SET_STATION: in force at once while the station is IDLE, with any staged set removed; the staged set
otherwise (R111). -/
def Station.setParams (x : Station) (p : Params) : Station :=
  if x.state = .idle then { x with tc := { x.tc with params := p, staged := none } }
  else { x with tc := { x.tc with staged := some p } }

/-- A SET_STATION reply that carries the parameters in force and the staged set (R111). -/
def State.answerParams (s : State) (f : MgmtFrame) (st : St) (status : ReplyStatus) : State :=
  s.answer f status (.params (s.works.station st).tc.params (s.works.station st).tc.staged)

/-- SET_STATION (R111). -/
def setStation (a : Authority) (f : MgmtFrame) (s : State) : State :=
  match stationOf (byteAt f.args 0), paramsOf f.args with
  | some st, some p =>
    if a = .planner ∧ (s.works.station st).state ≠ .idle then s.answerParams f st .locked
    else (s.onWorks fun w => w.upd st fun x => x.setParams p).answerParams f st .ok
  | none, _ => s.answer f .range .empty
  | some _, none => s.answer f .range .empty

/-- SET_STATION (R111). -/
def execSetStation (s : State) : Host.Outcome State Fault Refusal := (s.serve .station 8 6 setStation).finish

end Sys2Proof.Machine
end

