-- ==== Sys2Proof/Machine/TableUnits.lean ====
section
/-! DEFINITION. The requests of the CONTOUR, PLAN and KERF units (R11 to R15, R23 to R31, R93). -/

namespace Sys2Proof.Machine

/-! ## CONTOUR (R11 to R15) -/

/-- The contour ID a request names. -/
def MgmtFrame.id (f : MgmtFrame) : Nat := (byteAt f.args 0).toNat

/-- A reply with the contour ID and the state of its record (R11). -/
def State.answerContour (s : State) (f : MgmtFrame) (status : ReplyStatus) : State :=
  s.answer f status (.contourState f.id ((s.works.contour? f.id).map Contour.state))

/-- Progress fields of a fresh definition (R13). -/
def Progress.fresh : Progress where
  arrived := 0
  cursor := 0
  breaks := 0
  offset := 0
  reservation := 0
  pendingFailure := none
  outcome := none

/-- A freshly defined contour, with a fresh plan (R13, R19). -/
def Contour.fresh (cfg : ContourConfig) : Contour where
  state := .defined
  cfg := cfg
  prog := Progress.fresh
  plan := { mode := .plain, timeout := Config.freshTimeout }
  mainEnded := false
  kerf := []

/-- The record can be defined anew or freed: DEFINED, or terminal and not its station's open contour (R13, R14). -/
def Works.replaceable (w : Works) (id : Nat) (c : Contour) : Bool :=
  c.state == .defined || (c.state.terminal && (w.station c.cfg.station).adm.openContour != some id)

/-- The record of contour `id` can take DEFINE_CONTOUR (R13). -/
def Works.definable (w : Works) (id : Nat) : Bool :=
  match w.contour? id with
  | none => true
  | some c => w.replaceable id c

/-- DEFINE_CONTOUR (R12, R13). -/
def defineContour (_ : Authority) (f : MgmtFrame) (s : State) : State :=
  if f.id = 0 then s.answer f .range (.contourId 0)
  else
    match configOf f.args with
    | none => s.answerContour f .range
    | some cfg =>
      if s.works.definable f.id then
        (s.onWorks fun w => { w with contours := tablePut w.contours f.id (Contour.fresh cfg) }).answerContour f .ok
      else s.answerContour f .locked

/-- DEFINE_CONTOUR (R13). -/
def execDefineContour (s : State) : Host.Outcome State Fault Refusal := (s.serve .contour 0 15 defineContour).finish

/-- DELETE_CONTOUR (R14). -/
def deleteContour (_ : Authority) (f : MgmtFrame) (s : State) : State :=
  if f.id = 0 then s.answer f .range (.contourId 0)
  else
    match s.works.contour? f.id with
    | none => s.answerContour f .undefined
    | some c =>
      if s.works.replaceable f.id c then
        (s.onWorks fun w => { w with contours := tableDrop w.contours f.id }).answerContour f .ok
      else s.answerContour f .locked

/-- DELETE_CONTOUR (R14). -/
def execDeleteContour (s : State) : Host.Outcome State Fault Refusal := (s.serve .contour 1 1 deleteContour).finish

/-- READ_CONTOUR (R15). -/
def readContour (_ : Authority) (f : MgmtFrame) (s : State) : State :=
  if f.id = 0 then s.answer f .range (.contourId 0)
  else
    match s.works.contour? f.id with
    | none => s.answerContour f .undefined
    | some c => s.answer f .ok (.contour f.id c.state c.cfg c.prog)

/-- READ_CONTOUR (R15). -/
def execReadContour (s : State) : Host.Outcome State Fault Refusal := (s.serve .contour 2 1 readContour).finish

/-! ## PLAN (R23 to R31) -/

/-- A structure edit rather than a confirmation edit (R24): it changes the mode, or a TAB plan's tab ordinal or
approach. -/
def PlanMode.structureEdit (present requested : PlanMode) : Bool :=
  match present, requested with
  | .plain, .plain | .catcher, .catcher | .pause, .pause => false
  | .tab t a _, .tab t' a' _ => t != t' || a != a'
  | .plain, _ | .catcher, _ | .pause, _ | .tab _ _ _, _ => true

/-- How the edit matrix answers (R25). -/
inductive Verdict
  | ok | locked | late
  deriving DecidableEq, Repr

/-- The edit matrix (R25). -/
def editMatrix (state : ContourState) (structureEdit : Bool) (a : Authority) : Verdict :=
  match state, structureEdit, a with
  | .defined, _, _ | .queued, _, _ => .ok
  | .entering, false, _ | .cutting, false, _ => .ok
  | .entering, true, .service | .cutting, true, .service => .late
  | .entering, true, .planner | .cutting, true, .planner => .locked
  | .tailIntake, false, .service | .deferred, false, .service => .ok
  | .tailIntake, false, .planner | .deferred, false, .planner => .locked
  | .tailIntake, true, _ | .deferred, true, _ => .locked
  | .tabCutting, _, _ | .closing, _, _ | .complete, _, _ | .failed, _, _ | .aborted, _, _ => .locked

/-- The test of an edit judged LATE (R26). -/
def Works.lateEdit (w : Works) (c : Contour) (requested : Plan) : Bool :=
  if c.mainEnded then false
  else
    match requested.tabOrdinal? with
    | none => true
    | some t =>
      !(c.plan.tabOrdinal? = none ∧ Config.deferredSize ≤ (w.station c.cfg.station).deferred.length)
        && decide (c.h + 1 ≤ t)

/-- The edit is accepted (R25, R26). -/
def Works.editAllowed (w : Works) (c : Contour) (requested : Plan) (a : Authority) : Bool :=
  match editMatrix c.state (c.plan.mode.structureEdit requested.mode) a with
  | .ok => true
  | .locked => false
  | .late => w.lateEdit c requested

/-- A TAB plan's ordinal lies within the bounds of the record (R18, R23). -/
def Plan.inBounds (p : Plan) (cfg : ContourConfig) : Bool :=
  match p.tabOrdinal? with
  | none => true
  | some t => decide (cfg.leadIn + 2 ≤ t) && decide (t ≤ cfg.segments)

/-- What a plan reply shows (R29, R31). -/
def Contour.planView (c : Contour) (plan : Plan) : PlanView :=
  { state := c.state, plan := plan, h := c.h, ended := c.mainEnded }

/-- The plan of contour `id` is replaced, which is a reading point of a main pass held at the tab ordinal (R27, R29). -/
def Works.setPlan (w : Works) (id : Nat) (st : St) (p : Plan) : Works :=
  (w.modContour id fun c => { c with plan := p }).settle st

/-- SET_PLAN (R23 to R29). The reply's "main pass has ended" is read when the request is taken, before what an accepted edit
itself sets off (log entry 30). -/
def setPlan (a : Authority) (f : MgmtFrame) (s : State) : State :=
  if f.id = 0 then s.answer f .range (.contourId 0)
  else
    match s.works.contour? f.id with
    | none => s.answer f .undefined (.contourId f.id)
    | some c =>
      match (planOf f.args).filter fun p => p.inBounds c.cfg with
      | none => s.answer f .range (.plan f.id (c.planView c.plan))
      | some p =>
        if s.works.editAllowed c p a then
          (s.onWorks fun w => w.setPlan f.id c.cfg.station p).answer f .ok (.plan f.id (c.planView p))
        else s.answer f .locked (.plan f.id (c.planView c.plan))

/-- SET_PLAN (R23). -/
def execSetPlan (s : State) : Host.Outcome State Fault Refusal := (s.serve .plan 0 7 setPlan).finish

/-- READ_PLAN (R31). A refused one carries no results (log entry 26). -/
def readPlan (_ : Authority) (f : MgmtFrame) (s : State) : State :=
  if f.id = 0 then s.answer f .range .empty
  else
    match s.works.contour? f.id with
    | none => s.answer f .undefined .empty
    | some c => s.answer f .ok (.planRead (c.planView c.plan))

/-- READ_PLAN (R31). -/
def execReadPlan (s : State) : Host.Outcome State Fault Refusal := (s.serve .plan 1 1 readPlan).finish

/-! ## KERF (R93) -/

/-- KERF_STATUS (R93). -/
def kerfStatus (_ : Authority) (f : MgmtFrame) (s : State) : State :=
  let p := s.works.pool
  s.answer f .ok (.kerf p.free (PerStation.ofStations s.works.kerfCount) p.waiting p.lastGranted)

/-- KERF_STATUS (R93). -/
def execKerfStatus (s : State) : Host.Outcome State Fault Refusal := (s.serve .kerf 0 0 kerfStatus).finish

end Sys2Proof.Machine
end

