-- ==== Sys2Proof/Machine/GapUnit.lean ====
section
/-! DEFINITION. The Gap Monitor: conversions, windows, alarms and the requests of the GAP unit (R162 to R172). -/

namespace Sys2Proof.Machine

/-! ## The converter (R162 to R164) -/

/-- A station that the scan converts (R163). -/
def GapMode.continuousMode : GapMode → Bool
  | .continuous | .continuousHold => true
  | .off | .single => false

/-- The five inputs in scan order, beginning at a scan position (R163). -/
def scanOrder (p : GapInput) : List GapInput :=
  match p with
  | .station 0 => [.station 0, .station 1, .station 2, .station 3, .reference]
  | .station 1 => [.station 1, .station 2, .station 3, .reference, .station 0]
  | .station 2 => [.station 2, .station 3, .reference, .station 0, .station 1]
  | .station 3 => [.station 3, .reference, .station 0, .station 1, .station 2]
  | .reference => [.reference, .station 0, .station 1, .station 2, .station 3]

/-- The input after one in scan order, REFERENCE followed by station 0 (R163). -/
def GapInput.after : GapInput → GapInput
  | .station 0 => .station 1
  | .station 1 => .station 2
  | .station 2 => .station 3
  | .station 3 => .reference
  | .reference => .station 0

/-- Eligible for the scan (R163). -/
def GapMonitor.eligible (g : GapMonitor) (i : GapInput) : Bool :=
  match i with
  | .reference => true
  | .station st => (g.channels.get st).cfg.mode.continuousMode

/-- The converter chooses its next conversion (R163): a pending single, else the first eligible input. -/
def GapMonitor.choose (g : GapMonitor) : GapMonitor :=
  match g.pendingSingle with
  | some st => { g with pendingSingle := none, inProgress := { input := .station st, single := true } }
  | none =>
    let i := ((scanOrder g.scan).find? g.eligible).getD .reference
    { g with inProgress := { input := i, single := false }, scan := i.after }

/-- The corrected code (R164): raw less offset, or 0, times gain, divided by 4096 with the remainder dropped. -/
def corrected (raw offset gain : Nat) : Nat := (raw - offset) * gain / 4096

/-! ## Windows and alarms (R166, R167) -/

/-- The alarm after a window of this short ratio (R167). -/
def GapChannel.alarmAfter (c : GapChannel) (ratio : Nat) : Bool :=
  if c.cfg.ratio ≤ ratio then true
  else
    match c.cfg.mode with
    | .continuousHold => c.alarm
    | .continuous | .off | .single => false

/-- A window is complete with this short count (R166). -/
def GapChannel.closeWindow (c : GapChannel) (shorts : Nat) : GapChannel :=
  let ratio := shorts * 100 / c.cfg.window
  { c with
    count := 0
    shorts := 0
    lastRatio := some ratio
    maximum := max c.maximum ratio
    minimum := min c.minimum ratio
    alarm := c.alarmAfter ratio }

/-- A SCAN conversion is stored and counted into the window (R164, R166). -/
def GapChannel.sample (c : GapChannel) (raw offset : Nat) : GapChannel :=
  let code := corrected raw offset c.cfg.gain
  let shorts := c.shorts + if code < c.cfg.threshold then 1 else 0
  let c1 := { c with latest := some (raw, code) }
  if c.cfg.window ≤ c.count + 1 then c1.closeWindow shorts else { c1 with count := c.count + 1, shorts := shorts }

/-- The channel of a station changes. -/
def GapMonitor.modChannel (g : GapMonitor) (st : St) (f : GapChannel → GapChannel) : GapMonitor :=
  { g with channels := g.channels.modify st f }

/-- A rise of the station's alarm: GAP_ALARM is set, and the sequencer is told (R167). -/
def Works.alarmRise (w : Works) (st : St) : Works := (w.raise (flagGapAlarm st)).gapRise st

/-- A SCAN conversion of a station ends (R164, R166, R167); in a mode that is no longer continuous it is discarded. -/
def State.scanEnds (s : State) (st : St) (raw : Nat) : State :=
  let c := s.gap.channels.get st
  if c.cfg.mode.continuousMode then
    let c1 := c.sample raw s.gap.offset
    let s1 := { s with gap := s.gap.modChannel st fun _ => c1 }
    if c1.alarm && !c.alarm then s1.onWorks fun w => w.alarmRise st else s1
  else s

/-- A SINGLE conversion ends (R164, R170): the deferred reply is built in its reserved place. -/
def State.singleEnds (s : State) (st : St) (raw : Nat) : State :=
  match s.gap.outstanding with
  | none => s
  | some g =>
    let r : Reply :=
      { tn := g.tn, unit := MgmtUnit.gap.code, request := 1, status := .ok
        data := .gapSingle st (corrected raw s.gap.offset (s.gap.channels.get st).cfg.gain) raw s.gap.offset }
    { s with replies := s.replies ++ [r], gap := { s.gap with outstanding := none } }

/-- The result of the conversion in progress is taken by its input and flag (R164). -/
def State.takeConversion (s : State) (raw : Nat) : State :=
  match s.gap.inProgress.input, s.gap.inProgress.single with
  | .reference, _ => { s with gap := { s.gap with offset := raw } }
  | .station st, true => s.singleEnds st raw
  | .station st, false => s.scanEnds st raw

/-- CONVERSION_END (R164): the result is taken, and the next conversion chosen (R163). -/
def execConversionEnd (raw : BitVec 12) (s : State) : Host.Outcome State Fault Refusal :=
  let s1 := s.takeConversion raw.toNat
  { s1 with gap := s1.gap.choose }.finish

/-! ## GAP requests (R168 to R171) -/

/-- A GAP request: BUSY while a GAP_SINGLE is outstanding, then RANGE for a station above 3 (R169, R170, R171). -/
def gapRequest (h : St → MgmtFrame → State → State) (_ : Authority) (f : MgmtFrame) (s : State) : State :=
  if s.gap.outstanding.isSome then s.answer f .busy .empty
  else
    match stationOf (byteAt f.args 0) with
    | none => s.answer f .range .empty
    | some st => h st f s

/-- The station's channel changes. -/
def State.onChannel (s : State) (st : St) (f : GapChannel → GapChannel) : State :=
  { s with gap := s.gap.modChannel st f }

/-- The channel after an accepted GAP_CONFIG (R169). -/
def GapChannel.configure (c : GapChannel) (cfg : GapConfig) : GapChannel :=
  { c with cfg := cfg, count := 0, shorts := 0, alarm := c.alarm && cfg.mode != .off }

/-- GAP_CONFIG (R169). -/
def gapConfig (st : St) (f : MgmtFrame) (s : State) : State :=
  match gapConfigOf f.args with
  | none => s.answer f .range .empty
  | some cfg => (s.onChannel st fun c => c.configure cfg).answer f .ok (.gapConfig cfg)

/-- GAP_CONFIG (R169). -/
def execGapConfig (s : State) : Host.Outcome State Fault Refusal := (s.serve .gap 0 9 (gapRequest gapConfig)).finish

/-- GAP_SINGLE (R170): the station becomes the pending single, and a place is reserved for its reply. -/
def gapSingle (st : St) (f : MgmtFrame) (s : State) : State :=
  if (s.gap.channels.get st).cfg.mode = .off then s.answer f .state .empty
  else { s with gap := { s.gap with pendingSingle := some st, outstanding := some { tn := f.tn, st := st } } }

/-- GAP_SINGLE (R170). -/
def execGapSingle (s : State) : Host.Outcome State Fault Refusal := (s.serve .gap 1 1 (gapRequest gapSingle)).finish

/-- GAP_READ (R171). -/
def gapRead (st : St) (f : MgmtFrame) (s : State) : State :=
  s.answer f .ok (.gapChannel (s.gap.channels.get st) s.gap.offset)

/-- GAP_READ (R171). -/
def execGapRead (s : State) : Host.Outcome State Fault Refusal := (s.serve .gap 2 1 (gapRequest gapRead)).finish

/-- GAP_CLEAR (R171). -/
def gapClear (st : St) (f : MgmtFrame) (s : State) : State :=
  (s.onChannel st fun c => { c with alarm := false }).answer f .ok (.alarm false)

/-- GAP_CLEAR (R171). -/
def execGapClear (s : State) : Host.Outcome State Fault Refusal := (s.serve .gap 3 1 (gapRequest gapClear)).finish

/-- GAP_RESET_EXTREMES (R171). -/
def gapResetExtremes (st : St) (f : MgmtFrame) (s : State) : State :=
  (s.onChannel st fun c => { c with maximum := 0, minimum := 100 }).answer f .ok .empty

/-- GAP_RESET_EXTREMES (R171). -/
def execGapResetExtremes (s : State) : Host.Outcome State Fault Refusal :=
  (s.serve .gap 4 1 (gapRequest gapResetExtremes)).finish

end Sys2Proof.Machine
end

