-- ==== Sys2Proof/Machine/PartUnits.lean ====
section
/-! DEFINITION. The requests of the PART, NOTICE and STORE units and the end of a store write (R109, R185 to R189). -/

namespace Sys2Proof.Machine

/-! ## PART (R109, R187) -/

/-- One station's line of a SUMMARY (R109). -/
def Station.summary (x : Station) : SummaryLine := { ok := x.tc.ok, fail := x.tc.fail, state := x.state }

/-- SUMMARY (R109). -/
def summary (_ : Authority) (f : MgmtFrame) (s : State) : State :=
  s.answer f .ok (.summary (PerStation.ofStations fun st => (s.works.station st).summary) s.linkErrors)

/-- SUMMARY (R109). -/
def execSummary (s : State) : Host.Outcome State Fault Refusal := (s.serve .part 0 0 summary).finish

/-- A station's catch wait is moved by the amount by which the time base was moved (R187). -/
def Station.moveWait (x : Station) (by_ : Time) : Station := { x with catchWait := x.catchWait.map fun e => e + by_ }

/-- The time base is loaded, and every armed catch wait moves with it (R187). -/
def Works.setTime (w : Works) (v : Time) : Works :=
  let d := v - w.time
  { w with
    time := v
    stations := PerStation.ofStations fun st => (w.station st).moveWait d }

/-- TIME_SET (R187). -/
def timeSet (_ : Authority) (f : MgmtFrame) (s : State) : State :=
  (s.onWorks fun w => w.setTime (word32At f.args 0)).answer f .ok (.time (word32At f.args 0))

/-- TIME_SET (R187). -/
def execTimeSet (s : State) : Host.Outcome State Fault Refusal := (s.serve .part 1 4 timeSet).finish

/-- TIME_READ (R187). -/
def timeRead (_ : Authority) (f : MgmtFrame) (s : State) : State := s.answer f .ok (.time s.works.time)

/-- TIME_READ (R187). -/
def execTimeRead (s : State) : Host.Outcome State Fault Refusal := (s.serve .part 2 0 timeRead).finish

/-! ## NOTICE (R185, R186) -/

/-- The Notice Unit changes. -/
def State.onNotices (s : State) (f : Notices → Notices) : State :=
  s.onWorks fun w => { w with notices := f w.notices }

/-- All 16 enables are replaced; turning ON the enable of a flag that is set makes a notice pending (R185, R186). -/
def Notices.setEnables (u : Notices) (mask : BitVec 16) : Notices :=
  { u with
    enables := mask
    pending := u.pending || (u.flags &&& mask &&& ~~~ u.enables) != 0 }

/-- NOTICE_ENABLE (R186). -/
def noticeEnable (_ : Authority) (f : MgmtFrame) (s : State) : State :=
  let s1 := s.onNotices fun u => u.setEnables (word16At f.args 0)
  s1.answer f .ok (.noticeEnables s1.works.notices.enables s1.works.notices.flags)

/-- NOTICE_ENABLE (R186). -/
def execNoticeEnable (s : State) : Host.Outcome State Fault Refusal := (s.serve .notice 0 2 noticeEnable).finish

/-- NOTICE_READ (R186). -/
def noticeRead (_ : Authority) (f : MgmtFrame) (s : State) : State :=
  s.answer f .ok (.notices s.works.notices.flags s.works.notices.enables s.works.notices.pending)

/-- NOTICE_READ (R186). -/
def execNoticeRead (s : State) : Host.Outcome State Fault Refusal := (s.serve .notice 1 0 noticeRead).finish

/-- The flags of a mask are cleared (R186). -/
def Notices.clear (u : Notices) (mask : BitVec 16) : Notices := { u with flags := u.flags &&& ~~~ mask }

/-- NOTICE_CLEAR (R186). -/
def noticeClear (_ : Authority) (f : MgmtFrame) (s : State) : State :=
  let s1 := s.onNotices fun u => u.clear (word16At f.args 0)
  s1.answer f .ok (.noticeFlags s1.works.notices.flags)

/-- NOTICE_CLEAR (R186). -/
def execNoticeClear (s : State) : Host.Outcome State Fault Refusal := (s.serve .notice 2 2 noticeClear).finish

/-! ## STORE (R188, R189) -/

/-- STORE_READ (R188). -/
def storeRead (_ : Authority) (f : MgmtFrame) (s : State) : State :=
  if s.store.writing.isSome then s.answer f .busy .empty
  else s.answer f .ok (.storeRead s.store.gains s.store.valid)

/-- STORE_READ (R188). -/
def execStoreRead (s : State) : Host.Outcome State Fault Refusal := (s.serve .store 0 0 storeRead).finish

/-- STORE_WRITE (R189): the write begins at once, and the store is invalid until its end. -/
def storeWrite (a : Authority) (f : MgmtFrame) (s : State) : State :=
  if s.store.writing.isSome then s.answer f .busy .empty
  else if a = .planner then s.answer f .locked .empty
  else
    match gainsOf f.args with
    | none => s.answer f .range .empty
    | some g => { s with store := { s.store with valid := false, writing := some { tn := f.tn, gains := g } } }

/-- STORE_WRITE (R189). -/
def execStoreWrite (s : State) : Host.Outcome State Fault Refusal := (s.serve .store 1 8 storeWrite).finish

/-- The write in progress ends (R189): the store holds the new gains and is valid, the deferred reply is built, and
STORE_DONE is set. With no write in progress nothing ends (log entry 31). -/
def State.writeEnds (s : State) : State :=
  match s.store.writing with
  | none => s
  | some k =>
    let r : Reply :=
      { tn := k.tn, unit := MgmtUnit.store.code, request := 1, status := .ok, data := .storeWritten k.gains }
    { s with
      replies := s.replies ++ [r]
      store := { gains := k.gains, valid := true, writing := none }
      works := s.works.raise flagStoreDone }

/-- STORE_WRITE_DONE (R189). -/
def execStoreWriteDone (s : State) : Host.Outcome State Fault Refusal := s.writeEnds.finish

end Sys2Proof.Machine
end

