-- ==== Sys2Proof/Machine/LineUnit.lean ====
section
/-! DEFINITION. The Sense Line Unit: changes of level, their delivery, and the requests of the SENSE unit (R173 to R176). -/

namespace Sys2Proof.Machine

/-- One of a station's three lines (R173). -/
def Lines.line (l : Lines) : Line → SenseLine
  | .breakLine => l.breakLine
  | .catchLine => l.catchLine
  | .guardLine => l.guardLine

/-- The three lines with one of them changed. -/
def Lines.setLine (l : Lines) (k : Line) (v : SenseLine) : Lines :=
  match k with
  | .breakLine => { l with breakLine := v }
  | .catchLine => { l with catchLine := v }
  | .guardLine => { l with guardLine := v }

/-- A line of a station. -/
def State.line (s : State) (st : St) (k : Line) : SenseLine := (s.lines.get st).line k

/-- A line of a station is replaced. -/
def State.setLine (s : State) (st : St) (k : Line) (v : SenseLine) : State :=
  { s with lines := s.lines.modify st fun l => l.setLine k v }

/-- A change to this level is an active edge: from the inactive to the active level, with the enable ON (R173). -/
def SenseLine.delivers (l : SenseLine) (level : Level) : Bool :=
  l.enable && l.level != l.edge.activeLevel && level == l.edge.activeLevel

/-- An active edge is delivered to the blocks R173 gives. -/
def Works.edge (w : Works) (st : St) (k : Line) : Works :=
  match k with
  | .breakLine => w.breakEdge st
  | .catchLine => w.catchEdge st
  | .guardLine => w.guardEdge st

/-- The pin of a line carries this level: the level is sampled whatever the enable, and an active edge is delivered at
this moment (R173). -/
def State.sample (s : State) (st : St) (k : Line) (level : Level) : State :=
  let l := s.line st k
  let s1 := s.setLine st k { l with level := level }
  if l.delivers level then s1.onWorks fun w => w.edge st k else s1

/-- A line goes to its active level; one that stands there already makes no edge (R173; log entry 23). -/
def State.goActive (s : State) (st : St) (k : Line) : State := s.sample st k (s.line st k).edge.activeLevel

/-- BREAK_EDGE (R113). -/
def execBreakEdge (st : St) (s : State) : Host.Outcome State Fault Refusal := (s.goActive st .breakLine).finish

/-- CATCH_EDGE (R148). -/
def execCatchEdge (st : St) (s : State) : Host.Outcome State Fault Refusal := (s.goActive st .catchLine).finish

/-- GUARD_EDGE (R147). -/
def execGuardEdge (st : St) (s : State) : Host.Outcome State Fault Refusal := (s.goActive st .guardLine).finish

/-- SENSE_LEVEL_CHANGE (R173). -/
def execSenseLevelChange (st : St) (k : Line) (level : Level) (s : State) : Host.Outcome State Fault Refusal :=
  (s.sample st k level).finish

/-! ## Requests (R174, R175) -/

/-- A request with PLANNER authority that would change the BREAK line of a station that is not IDLE (R174). -/
def State.senseLocked (s : State) (a : Authority) (st : St) (k : Line) (enable : Bool) (edge : Edge) : Bool :=
  a == .planner && k == .breakLine && (s.works.station st).state != .idle
    && ((s.line st k).enable != enable || (s.line st k).edge != edge)

/-- SENSE_CONFIG (R174). -/
def senseConfig (a : Authority) (f : MgmtFrame) (s : State) : State :=
  match stationOf (byteAt f.args 0), lineOf (byteAt f.args 1), boolOf (byteAt f.args 2), edgeOf (byteAt f.args 3) with
  | some st, some k, some enable, some edge =>
    if s.senseLocked a st k enable edge then s.answer f .locked .empty
    else
      let v : SenseLine := { enable := enable, edge := edge, level := (s.line st k).level }
      (s.setLine st k v).answer f .ok (.line v)
  | _, _, _, _ => s.answer f .range .empty

/-- SENSE_CONFIG (R174). -/
def execSenseConfig (s : State) : Host.Outcome State Fault Refusal := (s.serve .sense 0 4 senseConfig).finish

/-- SENSE_READ (R175). -/
def senseRead (_ : Authority) (f : MgmtFrame) (s : State) : State := s.answer f .ok (.lines s.lines)

/-- SENSE_READ (R175). -/
def execSenseRead (s : State) : Host.Outcome State Fault Refusal := (s.serve .sense 1 0 senseRead).finish

end Sys2Proof.Machine
end

