-- ==== Sys2Proof/Machine/Ports.lean ====
section
/-! DEFINITION. The commands of the station ports and of the catch wait (R59 to R63, R73, R98 to R103, R193). -/

namespace Sys2Proof.Machine

/-- A message of station `st`'s drive that passed the four tests of R193 is taken. -/
def State.report (s : State) (st : St) (r : DriveReport) : Host.Outcome State Fault Refusal :=
  (s.onWorks fun w => w.portMessage st r).finish

/-- DONE (R68). -/
def execDone (st : St) (issue : Byte) (s : State) : Host.Outcome State Fault Refusal := s.report st (.done issue)

/-- STOPPED (R60). -/
def execStopped (st : St) (issue : Option Byte) (progress : BitVec 24) (s : State) : Host.Outcome State Fault Refusal :=
  s.report st (.stopped issue progress)

/-- FAULT (R62). -/
def execFault (st : St) (issue : Byte) (progress : BitVec 24) (code : Byte) (s : State) :
    Host.Outcome State Fault Refusal := s.report st (.fault issue progress code)

/-- CUT (R59). -/
def execCut (st : St) (s : State) : Host.Outcome State Fault Refusal := s.report st .cut

/-- PROBE (R98). -/
def execProbe (st : St) (result : Byte) (s : State) : Host.Outcome State Fault Refusal := s.report st (.probe result)

/-- PROBE_END (R99). -/
def execProbeEnd (st : St) (s : State) : Host.Outcome State Fault Refusal := s.report st .probeEnd

/-- THREADED (R103). -/
def execThreaded (st : St) (s : State) : Host.Outcome State Fault Refusal := s.report st .threaded

/-- ABANDONED (R100). -/
def execAbandoned (st : St) (s : State) : Host.Outcome State Fault Refusal := s.report st .abandoned

/-- PORT_LINK_DOWN (R193): the link itself goes DOWN, or message bytes arrive and one of the four tests fails. Bytes that
pass them are taken as their code requires (log entry 19). -/
def execPortLinkDown (st : St) (message : Option (List Byte)) (s : State) : Host.Outcome State Fault Refusal :=
  match message.bind receiveReport with
  | some r => s.report st r
  | none => (s.onWorks fun w => w.portDown st).finish

/-- CATCH_WAIT_EXPIRY (R73). -/
def execCatchWaitExpiry (st : St) (s : State) : Host.Outcome State Fault Refusal :=
  (s.onWorks fun w => w.catchExpiry st).finish

end Sys2Proof.Machine
end

