-- ==== Sys2Proof/Machine/Layout.lean ====
section
/-! DEFINITION. The bytes of frames and messages (chapter 12): the envelope with its check, downstream frames as the cell
controller builds them, replies, reports, notices, and messages to a drive. -/

namespace Sys2Proof.Machine

/-! ## Values to bytes, high byte first -/

/-- A value of `n` bytes. -/
def bytesBE : Nat → Nat → List Byte
  | 0, _ => []
  | n + 1, v => BitVec.ofNat 8 (v / 256 ^ n) :: bytesBE n v

/-- One byte. -/
def b1 (v : Nat) : List Byte := bytesBE 1 v
/-- Two bytes. -/
def b2 (v : Nat) : List Byte := bytesBE 2 v
/-- Three bytes. -/
def b3 (v : Nat) : List Byte := bytesBE 3 v
/-- Four bytes. -/
def b4 (v : Nat) : List Byte := bytesBE 4 v
/-- A 2-byte word. -/
def w2 (v : BitVec 16) : List Byte := [v.extractLsb' 8 8, v.extractLsb' 0 8]
/-- A 3-byte word. -/
def w3 (v : BitVec 24) : List Byte := [v.extractLsb' 16 8, v.extractLsb' 8 8, v.extractLsb' 0 8]
/-- A yes-or-no value. -/
def yn (b : Bool) : List Byte := b1 (if b then 1 else 0)
/-- An offset index, in two's complement. -/
def i1 (v : Int) : List Byte := [BitVec.ofInt 8 v]
/-- A contour ID that may be none, sent as 0. -/
def idOr0 (c : Option Nat) : List Byte := b1 (c.getD 0)
/-- An optional field: presence byte, then the field at its full width, zeros when absent. -/
def optional (width : Nat) (v : Option (List Byte)) : List Byte :=
  match v with
  | some bs => b1 1 ++ bs
  | none => b1 0 ++ List.replicate width 0
/-- A pair of coordinates. -/
def pair3 (p : Coord × Coord) : List Byte := w3 p.1 ++ w3 p.2

/-! ## Codes of named values (12.6) -/

/-- Path kind code. -/
def PathKind.code : PathKind → Nat
  | .cutLine => 0
  | .arcCw => 1
  | .arcCcw => 2
  | .travel => 3
  | .dwell => 4
  | .tabs => 5
  | .endProgram => 6

/-- Reply status code. -/
def ReplyStatus.code : ReplyStatus → Nat
  | .ok => 0
  | .busy => 1
  | .locked => 2
  | .state => 3
  | .undefined => 4
  | .range => 5
  | .badReq => 6

/-- Refusal reason code. -/
def RefusalReason.code : RefusalReason → Nat
  | .noProgram => 0
  | .aborting => 1
  | .closed => 2
  | .stale => 3
  | .seq => 4
  | .badField => 5
  | .full => 6
  | .markBusy => 7
  | .undefined => 8
  | .chain => 9

/-- Cause code. -/
def Cause.code : Cause → Nat
  | .success => 0
  | .threadAttempts => 1
  | .adjLimit => 2
  | .lockout => 3
  | .breakLimit => 4
  | .aborted => 5
  | .skippedByRequest => 6

/-- A cause that may be absent, sent as 255. -/
def causeByte (c : Option Cause) : List Byte := b1 ((c.map Cause.code).getD 255)

/-- Contour state code; FREE is 0. -/
def ContourState.code : ContourState → Nat
  | .defined => 1
  | .queued => 2
  | .entering => 3
  | .cutting => 4
  | .tailIntake => 5
  | .deferred => 6
  | .tabCutting => 7
  | .closing => 8
  | .complete => 9
  | .failed => 10
  | .aborted => 11

/-- Station state code. -/
def StationState.code : StationState → Nat
  | .idle => 0
  | .active => 1
  | .held => 2
  | .aborting => 3

/-- Wire state code. -/
def Wire.code : Wire → Nat
  | .unknown => 0
  | .unthreaded => 1
  | .threaded => 2
  | .broken => 3

/-- Program condition code (R33). -/
def programCode : Option Program → Nat
  | none => 0
  | some p => if p.closed then 2 else 1

/-- Activity code. -/
def Activity.code : Activity → Nat
  | .waiting => 0
  | .entering => 1
  | .waitKerf => 2
  | .threading => 3
  | .cutting => 4
  | .tailIntake => 5
  | .closing => 6
  | .recovering => 7
  | .tabPass => 8
  | .dwelling => 9
  | .travelling => 10

/-- MOVE mode code. -/
def MoveMode.code : MoveMode → Nat
  | .cut => 0
  | .kerf => 1
  | .travel => 2

/-- Operation kind code. -/
def OpBody.code : OpBody → Nat
  | .move m _ _ _ _ => m.code
  | .thread _ => 3
  | .confirm => 4
  | .abandon => 5
  | .wireCut _ => 6
  | .dwell _ _ => 7

/-- Direction, and approach, code. -/
def Direction.code : Direction → Nat
  | .forward => 0
  | .reverse => 1

/-- Separation confirm code. -/
def Confirm.code : Confirm → Nat
  | .plain => 0
  | .catcher => 1
  | .pause => 2

/-- Plan mode code. -/
def PlanMode.code : PlanMode → Nat
  | .plain => 0
  | .catcher => 1
  | .pause => 2
  | .tab _ _ _ => 3

/-- Failure policy code. -/
def Policy.code : Policy → Nat
  | .skip => 0
  | .halt => 1

/-- Relock policy code. -/
def Relock.code : Relock → Nat
  | .retry => 0
  | .fail => 1

/-- Gap mode code. -/
def GapMode.code : GapMode → Nat
  | .off => 0
  | .single => 1
  | .continuous => 2
  | .continuousHold => 3

/-- Active edge code. -/
def Edge.code : Edge → Nat
  | .rising => 0
  | .falling => 1

/-- Level code: LOW 0, HIGH 1 (log entry 27). -/
def Level.code : Level → Nat
  | .low => 0
  | .high => 1

/-- Episode kind code. -/
def EpisodeKind.code : EpisodeKind → Nat
  | .startHole => 0
  | .inKerf => 1

/-- THREAD outcome code. -/
def ThreadOutcome.code : ThreadOutcome → Nat
  | .threaded => 0
  | .threadAttempts => 1
  | .adjLimit => 2
  | .lockout => 3
  | .aborted => 4

/-- Pass code. -/
def Pass.code : Pass → Nat
  | .main => 0
  | .tail => 1

/-- Place code; NONE is absent, 255. -/
def WirePlace.code : WirePlace → Nat
  | .startHole => 0
  | .inCut => 1
  | .inTraverse => 2
  | .nowhere => 255

/-- Teardown cause code. -/
def TeardownCause.code : TeardownCause → Nat
  | .request => 0
  | .driveLost => 1

/-- MARK outcome code. -/
def MarkOutcome.code : MarkOutcome → Nat
  | .done => 0
  | .discarded => 1

/-- Code of a clearing request, within the STATION unit. -/
def Clearing.code : Clearing → Nat
  | .resume => 2
  | .confirm => 3
  | .skipContour => 4
  | .retry => 5

/-! ## The envelope, and downstream frames as the cell controller builds them (12.1 to 12.3) -/

/-- The bytes a check is computed over, followed by the check (R192): `content` runs from the class or code to the last
byte of body or fields. -/
def enveloped (content : List Byte) : List Byte :=
  let checked := b1 content.length ++ content
  checked ++ checkBytes (frameCheck checked)

/-- A PATH frame's bytes from its length byte to its check (12.2). -/
def PathFrame.bytes (f : PathFrame) : List Byte :=
  enveloped
    (b1 0 ++ [f.station, f.tag] ++ w2 f.seq ++ [f.kind, f.flags, f.contour] ++ w2 f.ordinal ++ w3 f.length
      ++ [f.feed] ++ f.rest)

/-- A MGMT frame's bytes from its length byte to its check (12.3). -/
def MgmtFrame.bytes (f : MgmtFrame) : List Byte :=
  enveloped (b1 1 ++ [f.authority, f.tn, f.unit, f.request] ++ f.args)

/-! ## Replies (12.3) -/

/-- A byte of packed bits: value `v` at bit `n`. -/
def bits (v n : Nat) : Nat := v * 2 ^ n

/-- A Bool as a bit. -/
def bitOf (b : Bool) : Nat := if b then 1 else 0

/-- One station's byte of a SUMMARY reply. -/
def SummaryLine.byte (l : SummaryLine) : List Byte := b1 (bits (bitOf l.ok) 0 + bits (bitOf l.fail) 1 + bits l.state.code 2)

/-- One line's byte of a SENSE_READ reply. -/
def SenseLine.byte (l : SenseLine) : List Byte :=
  b1 (bits (bitOf l.enable) 0 + bits l.edge.code 1 + bits l.level.code 2 + bits (bitOf l.isActive) 3)

/-- An outstanding operation in a STATUS reply: issue number and kind, kind 255 when absent. -/
def opField (o : Option Op) : List Byte :=
  match o with
  | some o => [o.issue] ++ b1 o.body.code
  | none => b1 0 ++ b1 255

/-- The closing record's byte of a STATUS reply. -/
def closingByte (k : Option Closing) : List Byte :=
  match k with
  | none => b1 0
  | some k => b1 (1 + bits (bitOf k.cutReceived) 1 + bits (bitOf k.satisfied) 2 + bits k.required.code 3)

/-- The results of a STATUS reply: positions 4 to 58 of its body. -/
def StatusView.bytes (v : StatusView) : List Byte :=
  b1 (bits v.state.code 0 + bits v.wire.code 2 + bits (programCode v.program) 4 + bits (bitOf v.stopAwaited) 6)
    ++ b1 (bits v.activity.code 0 + bits v.returned 4)
    ++ w2 v.holds.mask ++ idOr0 v.current
    ++ opField v.pair[0]? ++ opField v.pair[1]?
    ++ closingByte v.closing ++ b1 v.catchTenths
    ++ (List.range Config.deferredSize).flatMap (fun i => b1 (v.deferred.getD i 0))
    ++ b2 v.completed ++ b2 v.failed ++ b1 v.lost
    ++ (match v.program with
        | some p => [p.tag] ++ w2 p.expected ++ w2 p.consumed
        | none => b1 0 ++ b2 0 ++ b2 0)
    ++ b1 v.credits ++ [v.handles]

/-- Station parameters, five bytes (R111). -/
def Params.bytes (p : Params) : List Byte :=
  b1 p.lockCount ++ b1 p.offsetBound ++ b1 p.inKerfLimit ++ b1 p.relock.code ++ yn p.gapHold

/-- The nine configuration values of a contour (R12, R15). -/
def ContourConfig.bytes (c : ContourConfig) : List Byte :=
  b1 c.station.val ++ w3 c.threadX ++ w3 c.threadY ++ b2 c.segments ++ b1 c.leadIn ++ yn c.inKerf ++ b1 c.breakLimit
    ++ b1 c.attemptLimit ++ b1 c.policy.code

/-- The progress values of a contour (R15). -/
def Progress.bytes (p : Progress) : List Byte :=
  b2 p.arrived ++ b2 p.cursor ++ b1 p.breaks ++ i1 p.offset ++ b2 p.reservation ++ causeByte p.pendingFailure
    ++ causeByte p.outcome

/-- A plan: mode, tab ordinal, approach, separation confirm, catch timeout (R29, R31). -/
def Plan.bytes (p : Plan) : List Byte :=
  b1 p.mode.code
    ++ (match p.mode with
        | .tab t a c => optional 2 (some (b2 t)) ++ b1 a.code ++ b1 c.code
        | .plain | .catcher | .pause => optional 2 none ++ b1 255 ++ b1 255)
    ++ b1 p.timeout

/-- What a plan reply shows of the contour, in the order of R29 and R31. -/
def PlanView.bytes (v : PlanView) : List Byte := b1 v.state.code ++ v.plan.bytes ++ b2 v.h ++ yn v.ended

/-- A waiting record, optional (R93). -/
def waitingBytes (r : Option Waiting) : List Byte := optional 3 (r.map fun r => b1 r.contour ++ b2 r.need)

/-- Configuration of a gap channel (R169). -/
def GapConfig.bytes (c : GapConfig) : List Byte :=
  b1 c.mode.code ++ b2 c.window ++ b2 c.threshold ++ b1 c.ratio ++ b2 c.gain

/-- A gap channel (R171). The alarm is 1 when set and 0 when clear, as in the reply of GAP_CLEAR (log entry 27). -/
def GapChannel.bytes (c : GapChannel) : List Byte :=
  c.cfg.bytes ++ b1 c.count ++ b1 c.shorts ++ optional 4 (c.latest.map fun p => b2 p.1 ++ b2 p.2)
    ++ optional 1 (c.lastRatio.map b1) ++ b1 c.maximum ++ b1 c.minimum ++ yn c.alarm

/-- The results of a reply, in the order its rule lists them (12.3). -/
def ReplyData.bytes : ReplyData → List Byte
  | .empty => []
  | .summary sts n => sts.toList.flatMap SummaryLine.byte ++ b2 n
  | .time v => b4 v.toNat
  | .opened tag expected credits => [tag] ++ w2 expected ++ b1 credits
  | .station state holds => b1 state.code ++ w2 holds.mask
  | .skipped state holds id cause => b1 state.code ++ w2 holds.mask ++ b1 id ++ b1 cause.code
  | .stationStatus v => v.bytes
  | .params p staged => p.bytes ++ optional 5 (staged.map Params.bytes)
  | .contourId id => b1 id
  | .contourState id state => b1 id ++ b1 ((state.map ContourState.code).getD 0)
  | .contour id state cfg prog => b1 id ++ b1 state.code ++ cfg.bytes ++ prog.bytes
  | .plan id v => b1 id ++ v.bytes
  | .planRead v => v.bytes
  | .kerf free counts waiting last =>
    b2 free ++ counts.toList.flatMap (fun k => b2 k.unallocated ++ b2 k.allocated ++ b1 k.contours)
      ++ waiting.toList.flatMap waitingBytes ++ b1 last.val
  | .gapConfig cfg => cfg.bytes
  | .gapSingle st code raw offset => b1 st.val ++ b2 code ++ b2 raw ++ b2 offset
  | .gapChannel c offset => c.bytes ++ b2 offset
  | .alarm a => yn a
  | .line l => yn l.enable ++ b1 l.edge.code ++ b1 l.level.code
  | .lines ls => ls.toList.flatMap fun l => l.breakLine.byte ++ l.catchLine.byte ++ l.guardLine.byte
  | .noticeEnables e f => w2 e ++ w2 f
  | .notices f e p => w2 f ++ w2 e ++ yn p
  | .noticeFlags f => w2 f
  | .storeRead g valid => g.toList.flatMap b2 ++ yn valid
  | .storeWritten g => g.toList.flatMap b2

/-- A REPLY body (12.3). -/
def Reply.body (r : Reply) : List Byte := [r.tn, r.unit, r.request] ++ b1 r.status.code ++ r.data.bytes

/-! ## Reports and notices (12.4) -/

/-- Code of a report kind. -/
def ReportBody.code : ReportBody → Nat
  | .refusal _ _ _ _ => 0
  | .progress _ _ _ _ => 1
  | .mark _ _ _ _ => 2
  | .thread _ _ _ _ _ => 3
  | .wireBreak _ _ _ _ _ _ _ => 4
  | .held _ _ _ _ _ _ => 5
  | .resumed _ _ _ => 6
  | .underrun _ _ _ => 7
  | .kerfWait _ _ => 8
  | .contourEnd _ _ _ _ _ _ _ => 9
  | .programEnd _ _ _ _ => 10
  | .teardown _ _ _ _ _ _ _ => 11

/-- The fields of a report before its time stamp (12.4). -/
def ReportBody.bytes : ReportBody → List Byte
  | .refusal seq reason expected credits => w2 seq ++ b1 reason.code ++ optional 2 (expected.map w2) ++ b1 credits
  | .progress tag consumed credits _ => [tag] ++ w2 consumed ++ b1 credits
  | .mark h seq id out => b1 h.val ++ w2 seq ++ b1 id ++ b1 out.code
  | .thread kind id out attempts offset => b1 kind.code ++ b1 id ++ b1 out.code ++ b1 attempts ++ i1 offset
  | .wireBreak id pass place position boundary count exceeded =>
    b1 id ++ b1 pass.code ++ b1 place.code ++ b2 position.1 ++ b3 position.2 ++ b2 boundary.1 ++ b3 boundary.2
      ++ b1 count ++ yn exceeded
  | .held added all activity id code cause =>
    w2 added.mask ++ w2 all.mask ++ b1 activity.code ++ idOr0 id ++ optional 1 (code.map fun c => [c])
      ++ causeByte cause
  | .resumed why activity id => b1 why.code ++ b1 activity.code ++ idOr0 id
  | .underrun id k consumed => b1 id ++ b2 k ++ w2 consumed
  | .kerfWait id need => b1 id ++ b2 need
  | .contourEnd id state cause arrived cursor breaks offset =>
    b1 id ++ b1 state.code ++ b1 cause.code ++ b2 arrived ++ b2 cursor ++ b1 breaks ++ i1 offset
  | .programEnd tag seq completed failed => [tag] ++ w2 seq ++ b2 completed ++ b2 failed
  | .teardown tag first n aborted uncut cause wire =>
    [tag] ++ optional 2 (first.map w2) ++ b1 n ++ b1 aborted ++ b1 uncut ++ b1 cause.code ++ b1 wire.code

/-- A REPORT body (12.4). -/
def Report.frameBody (st : St) (r : Report) : List Byte := b1 st.val ++ b1 r.body.code ++ r.body.bytes ++ b4 r.stamp.toNat

/-- The bytes of an upstream frame, from its length byte to its check (12.1, R192). -/
def UpFrame.bytes : UpFrame → List Byte
  | .reply r => enveloped (b1 2 ++ r.body)
  | .report st r => enveloped (b1 3 ++ r.frameBody st)
  | .notice mask stamp => enveloped (b1 4 ++ w2 mask ++ b4 stamp.toNat)

/-! ## Messages to a drive (12.5) -/

/-- The code and fields of an operation's message (R58, 12.5). -/
def Op.content (o : Op) : List Byte :=
  match o.body with
  | .move mode dir off seg _ =>
    b1 1 ++ [o.issue] ++ b1 mode.code ++ b1 dir.code ++ b3 off ++ b1 seg.kind.code ++ b3 seg.length ++ w3 seg.endX
      ++ w3 seg.endY ++ pair3 (seg.centre.getD (0, 0)) ++ b1 seg.feed ++ yn seg.taper.isSome
      ++ pair3 (seg.taper.getD (0, 0))
  | .thread off => b1 2 ++ [o.issue] ++ i1 off
  | .confirm => b1 3 ++ [o.issue]
  | .abandon => b1 4 ++ [o.issue]
  | .wireCut _ => b1 5 ++ [o.issue]
  | .dwell ms _ => b1 6 ++ [o.issue] ++ b2 ms

/-- The message that issues an operation (12.5). -/
def Op.bytes (o : Op) : List Byte := enveloped o.content

/-- The STOP message (12.5). -/
def stopBytes : List Byte := enveloped (b1 7)

end Sys2Proof.Machine
end

