-- ==== Sys2Proof/Machine/Dispatch.lean ====
section
/-! DEFINITION. One arm per command, each a direct call of its meaning. -/

namespace Sys2Proof.Machine

/-- The effect of a command on everything but the queue of waiting commands. -/
def exec (i : Instr) (s : State) : Host.Outcome State Fault Refusal :=
  match i with
  | .partReset => Sys2Proof.Machine.execPartReset s
  | .pathFrame f => Sys2Proof.Machine.execPathFrame f s
  | .mgmtFrame f => Sys2Proof.Machine.execMgmtFrame f s
  | .linkError bytes => Sys2Proof.Machine.execLinkError bytes s
  | .unknownUnitRequest => Sys2Proof.Machine.execUnknownUnitRequest s
  | .summary => Sys2Proof.Machine.execSummary s
  | .timeSet => Sys2Proof.Machine.execTimeSet s
  | .timeRead => Sys2Proof.Machine.execTimeRead s
  | .beginProgram => Sys2Proof.Machine.execBeginProgram s
  | .hold => Sys2Proof.Machine.execHold s
  | .resume => Sys2Proof.Machine.execResume s
  | .confirm => Sys2Proof.Machine.execConfirm s
  | .skipContour => Sys2Proof.Machine.execSkipContour s
  | .retry => Sys2Proof.Machine.execRetry s
  | .abort => Sys2Proof.Machine.execAbort s
  | .status => Sys2Proof.Machine.execStatus s
  | .setStation => Sys2Proof.Machine.execSetStation s
  | .defineContour => Sys2Proof.Machine.execDefineContour s
  | .deleteContour => Sys2Proof.Machine.execDeleteContour s
  | .readContour => Sys2Proof.Machine.execReadContour s
  | .setPlan => Sys2Proof.Machine.execSetPlan s
  | .readPlan => Sys2Proof.Machine.execReadPlan s
  | .kerfStatus => Sys2Proof.Machine.execKerfStatus s
  | .gapConfig => Sys2Proof.Machine.execGapConfig s
  | .gapSingle => Sys2Proof.Machine.execGapSingle s
  | .gapRead => Sys2Proof.Machine.execGapRead s
  | .gapClear => Sys2Proof.Machine.execGapClear s
  | .gapResetExtremes => Sys2Proof.Machine.execGapResetExtremes s
  | .senseConfig => Sys2Proof.Machine.execSenseConfig s
  | .senseRead => Sys2Proof.Machine.execSenseRead s
  | .noticeEnable => Sys2Proof.Machine.execNoticeEnable s
  | .noticeRead => Sys2Proof.Machine.execNoticeRead s
  | .noticeClear => Sys2Proof.Machine.execNoticeClear s
  | .storeRead => Sys2Proof.Machine.execStoreRead s
  | .storeWrite => Sys2Proof.Machine.execStoreWrite s
  | .storeWriteDone => Sys2Proof.Machine.execStoreWriteDone s
  | .conversionEnd raw => Sys2Proof.Machine.execConversionEnd raw s
  | .breakEdge st => Sys2Proof.Machine.execBreakEdge st s
  | .catchEdge st => Sys2Proof.Machine.execCatchEdge st s
  | .guardEdge st => Sys2Proof.Machine.execGuardEdge st s
  | .senseLevelChange st line level => Sys2Proof.Machine.execSenseLevelChange st line level s
  | .done st issue => Sys2Proof.Machine.execDone st issue s
  | .stopped st issue progress => Sys2Proof.Machine.execStopped st issue progress s
  | .fault st issue progress code => Sys2Proof.Machine.execFault st issue progress code s
  | .cut st => Sys2Proof.Machine.execCut st s
  | .probe st result => Sys2Proof.Machine.execProbe st result s
  | .probeEnd st => Sys2Proof.Machine.execProbeEnd st s
  | .threaded st => Sys2Proof.Machine.execThreaded st s
  | .abandoned st => Sys2Proof.Machine.execAbandoned st s
  | .portLinkDown st message => Sys2Proof.Machine.execPortLinkDown st message s
  | .catchWaitExpiry st => Sys2Proof.Machine.execCatchWaitExpiry st s
  | .upstreamFrameSent => Sys2Proof.Machine.execUpstreamFrameSent s
  | .unknownRequest unit => Sys2Proof.Machine.execUnknownRequest unit s

end Sys2Proof.Machine
end

