-- ==== Sys2Proof/Machine/Step.lean ====
section
/-! DEFINITION. One step: the command at the front of the queue, or, on an empty queue, one microsecond of the time
base. -/

namespace Sys2Proof.Machine

/-- A microsecond passes with no command waiting: the time base counts up (R187; log entry 10), a reservation request held
since an earlier event is made (R65; log entry 33), and the arbiter looks at the lane (R183). -/
def State.tick (s : State) : State := (s.onWorks fun w => ({ w with time := w.time + 1 } : Works).settle 0).upstream

/-- One step: the command at the front of the queue is taken and executed on the state with the queue's rest. -/
def step (s : State) : Host.Outcome State Fault Refusal :=
  match s.pending with
  | [] => .next s.tick
  | c :: rest => exec c { s with pending := rest }

/-- The state with the command that a table word spells at the front of its queue: unchanged, since no word spells a
command (log entry 12). -/
def State.withFetchWord (s : State) (nbits w : Nat) : State :=
  match decodeTableWord nbits w with
  | some c => { s with pending := c :: s.pending }
  | none => s

end Sys2Proof.Machine
end

