-- ==== Sys2Proof/Safety.lean ====
section
/-! DEFINITION. The predicates the statements are written with: the laws of the manual as properties of a state, and
when a management request is there to be taken. -/

namespace Sys2Proof.Machine

/-- The bounds of the link: the management buffer (R178), the reply queue with its reserved places (R180), the link
error count (R177). -/
def State.linkOk (s : State) : Prop :=
  s.mgmt.length ≤ Config.mgmtBufferSize ∧ s.replies.length + s.reserved ≤ Config.replyPlaces
    ∧ s.linkErrors ≤ Config.countLimit

/-- An issue pair obeys the fourth law (R57): at most two operations, and a tool operation stands alone. -/
def pairOk (pair : List Op) : Prop :=
  pair.length ≤ 2 ∧ ∀ o ∈ pair, o.body.isTool = true → pair.length = 1

/-- The bounds of one station: its inbound queue (R45), its report queue and lost-report count (R182), its issue pair
(R57). -/
def Station.ok (x : Station) : Prop :=
  x.adm.queue.length ≤ Config.queueSize ∧ x.reports.length ≤ Config.reportQueueSize ∧ x.lost ≤ Config.lostLimit
    ∧ pairOk x.pair

/-- Every station keeps its bounds. -/
def Works.stationsOk (w : Works) : Prop := ∀ st, (w.station st).ok

/-- A good state: the link's bounds and every station's. -/
def State.good (s : State) : Prop := s.linkOk ∧ s.works.stationsOk

/-- A station is HELD exactly while its hold reason set is not empty (R53, R144). -/
def Station.holdLaw (x : Station) : Prop := x.state = .held ↔ x.holds ≠ Holds.none

/-- The summary flags and the episode record agree (R96, R107, R109), and the offset index lies within the bound
(R100, the eleventh law). -/
def Threader.episodeLaw (t : Threader) : Prop :=
  ¬(t.ok = true ∧ t.fail = true)
    ∧ ∀ e, t.episode = some e →
        t.ok = false ∧ t.fail = false ∧ -(e.offsetBound : Int) ≤ e.offset ∧ e.offset ≤ (e.offsetBound : Int)

/-- Every station keeps the law of its hold reason set. -/
def State.holdLaw (s : State) : Prop := ∀ st, (s.works.station st).holdLaw

/-- Every threading controller keeps its law. -/
def State.episodeLaw (s : State) : Prop := ∀ st, (s.works.station st).tc.episodeLaw

/-- A station channel within the ranges of R165. -/
def GapChannel.inRange (c : GapChannel) : Prop :=
  16 ≤ c.cfg.window ∧ c.cfg.window ≤ 256 ∧ c.cfg.window % 16 = 0 ∧ c.cfg.threshold ≤ 4095
    ∧ 1 ≤ c.cfg.ratio ∧ c.cfg.ratio ≤ 100 ∧ c.cfg.gain ≤ 4095 ∧ c.count < c.cfg.window ∧ c.shorts ≤ c.count ∧ c.maximum ≤ 100 ∧ c.minimum ≤ 100
    ∧ (∀ r, c.lastRatio = some r → r ≤ 100) ∧ ∀ p, c.latest = some p → p.1 ≤ 4095 ∧ p.2 ≤ 4095

/-- The Gap Monitor and the calibration store within their ranges (R162, R165, R188). -/
def State.gapInRange (s : State) : Prop :=
  s.gap.offset ≤ 4095 ∧ (∀ st, (s.gap.channels.get st).inRange) ∧ (∀ st, s.store.gains.get st ≤ 4095)
    ∧ ∀ k, s.store.writing = some k → ∀ st, k.gains.get st ≤ 4095

/-- A kerf record is in ordinal order (R85). -/
def Contour.kerfLaw (c : Contour) : Prop := c.kerf.Pairwise fun e o => e.ordinal ≤ o.ordinal

/-- Every kerf record is in ordinal order (R85). -/
def State.kerfLaw (s : State) : Prop := ∀ p ∈ s.works.contours, p.2.kerfLaw

/-- The contour table holds IDs 1 to 255 only, each once (R1), in the canonical form of the model's tables. -/
def State.tableLaw (s : State) : Prop :=
  tableSorted s.works.contours = true ∧ ∀ p ∈ s.works.contours, 1 ≤ p.1 ∧ p.1 ≤ 255

/-- The free and the reserved slots of the Kerf Record Store. -/
def Works.slots (w : Works) : Nat := w.pool.free + (w.contours.map fun p => p.2.prog.reservation).sum

/-- The third law (R81): free and reserved slots sum to 4096. With it, the states in which a contour holds no slots: it
has not been entered yet or its work has ended (R86, R88). -/
def State.slotLaw (s : State) : Prop :=
  s.works.slots = 4096
    ∧ ∀ p ∈ s.works.contours,
        p.2.state = .defined ∨ p.2.state = .complete ∨ p.2.state = .failed ∨ p.2.state = .aborted →
        p.2.prog.reservation = 0

/-! ## What the end of an operation, of an entry and of a contour leave: each a relation between two works -/

/-- The station's pass works on contour `id` (R120, R138). -/
def Station.inPass (x : Station) (id : Nat) : Bool := x.pass.any fun r => r.work.any fun p => p.contour == id

/-- The end of a contour under SKIP, which SKIP_CONTOUR shares, item by item (R46, R153, R155): FAILED with its cause; the
contour's entries at the head of the queue discarded, their marks reported DISCARDED, consumed through at the last and
PROGRESS updated; the release (R88); the station's work on it gone; and CONTOUR_END. -/
def Works.EndsFailed (w : Works) (st : St) (id : Nat) (c : Contour) (cause : Cause) (w' : Works) : Prop :=
  let v := (w.modContour id fun c =>
      { c with state := .failed, prog := { c.prog with outcome := some cause, pendingFailure := none } }).upd st fun x =>
        { x with failed := if x.failed < 65535 then x.failed + 1 else 65535 }
  ∃ u : Works,
    (∀ mine rest, (w.station st).adm.queue = mine ++ rest → (∀ e ∈ mine, e.contour = id) →
      (∀ e, rest.head? = some e → e.contour ≠ id) →
      (mine = [] → u = v)
        ∧ ∀ e, mine.getLast? = some e →
          u = ((v.markReports st (mine.filterMap QEntry.mark) .discarded).upd st fun x =>
            { x with
              adm := { x.adm with
                queue := rest, program := x.adm.program.map fun p => { p with consumed := e.seq } } }).progressUpdate st)
      ∧ w' = ((u.release id).upd st fun x =>
          { x with
            current := none, recovery := none, closing := none, catchWait := none, breakPending := false
            pass := x.pass.map fun r => { r with work := none }
            activity := if x.pass.isSome then .tabPass else .waiting
            failureCutDue := decide (x.wire ≠ .unthreaded) && !x.pair.any fun o => o.body.isWireCut }).report st
              (.contourEnd id .failed cause c.prog.arrived c.prog.cursor c.prog.breaks c.prog.offset)

/-- A contour failure of the station's current contour `id` (R153, R154): CONTOUR_FAILED is flagged; under SKIP the contour
ends, and under HALT its failure is pending and CONTOUR_FAILED is added to the holds, with DRIVE_FAULT when the event is a
FAULT of this code. -/
def Works.Fails (w : Works) (st : St) (id : Nat) (c : Contour) (cause : Cause) (code : Option Byte) (w' : Works) : Prop :=
  (c.cfg.policy = .skip → (w.raise flagContourFailed).EndsFailed st id c cause w')
    ∧ (c.cfg.policy = .halt →
      w' = ((w.raise flagContourFailed).modContour id fun c =>
        { c with prog := { c.prog with pendingFailure := some cause } }).addHolds st
          { contourFailed := true, driveFault := code.isSome } code (some cause))

/-- A closing begins for contour `id`, whose record is `c` (R72, R73, R137): the contour is CLOSING, the closing record is
set up from the plan, and the catch wait is armed for CATCH unless the station is in teardown (log entry 15). That its main
pass counts as ended is log entry 13's. -/
def Works.ClosingBegins (w : Works) (st : St) (id : Nat) (c : Contour) (w' : Works) : Prop :=
  let need := c.plan.confirmRequired
  let tail := (w.station st).inPass id
  w' = (w.modContour id fun c => { c with state := .closing, mainEnded := true }).upd st fun x =>
    { x with
      closing := some { cutReceived := false, required := need, satisfied := decide (need = .plain) }
      catchWait :=
        if need = .catcher ∧ x.state ≠ .aborting then some (w.time + BitVec.ofNat 32 (c.plan.timeout * 100000)) else none
      activity := if tail then x.activity else .closing
      pass :=
        if tail then x.pass.map fun r => { r with work := r.work.map fun p => { p with step := .closing } } else x.pass }

/-- Entry `e`, ordinal `k` of contour `id`, becomes CUT, or TAIL_CUT in a tail (R68, R83, R136): its mark is reported DONE,
the cut cursor rises in a main pass, and the last ordinal of the main pass or the last entry of the tail begins the
closing. -/
def Works.EntryCounts (w : Works) (st : St) (id k : Nat) (c : Contour) (e : KerfEntry) (tail : Bool) (w' : Works) : Prop :=
  let v := (w.modContour id fun c =>
      { c with
        kerf := c.kerf.map fun f =>
          if f.ordinal = k then { f with state := if tail then .tailCut else .cut, handle := none } else f
        prog := { c.prog with cursor := if tail then c.prog.cursor else c.prog.cursor + 1 } }).markReport? st
          (e.handle.map fun h => { handle := h, seq := e.seq, contour := id }) .done
  let last : Prop :=
    if tail = true then ∀ f ∈ c.kerf, f.ordinal ≠ k → f.state ≠ .tail ∧ f.state ≠ .tailIssued else k = c.cfg.segments
  (last → v.ClosingBegins st id c w') ∧ (¬last → w' = v)

/-- The move of entry `k` of contour `id` ended at `p` short of a DONE (R60, R83, R84): the entry keeps the greater progress,
never past its length (log entry 14); at its full length it counts as cut, and otherwise it returns to PENDING or TAIL. -/
def Works.EntryReturns (w : Works) (st : St) (id k p : Nat) (tail : Bool) (w' : Works) : Prop :=
  let kept : KerfEntry → KerfEntry := fun f =>
    if f.ordinal = k then { f with progress := min (max p f.progress) f.seg.length } else f
  ((∀ c, w.contour? id = some c → c.entry? k = none) → w' = w)
    ∧ ∀ c e, w.contour? id = some c → c.entry? k = some e →
      (max p e.progress < e.seg.length →
          w' = w.modContour id fun c =>
            { c with
              kerf := c.kerf.map fun f =>
                if f.ordinal = k then { kept f with state := if tail then .tail else .pending } else f })
        ∧ (e.seg.length ≤ max p e.progress →
          (w.modContour id fun c => { c with kerf := c.kerf.map kept }).EntryCounts st id k
            { c with kerf := c.kerf.map kept } { e with progress := e.seg.length } tail w')

/-- A THREAD, or in some cases a CONFIRM or ABANDON, ended by a STOP's answer or a FAULT (R105, R106, R108): a clearance is
due, and in a teardown the episode ends ABORTED with its THREAD report and the wire UNKNOWN. -/
def Works.ThreadEnds (w : Works) (st : St) (w' : Works) : Prop :=
  let x := w.station st
  (x.state ≠ .aborting →
      w' = w.upd st fun x =>
        { x with
          tc := { x.tc with
            state := .idle
            episode := x.tc.episode.map fun e => { e with clearanceDue := true, reason := some .clearance } } })
    ∧ (x.state = .aborting → x.tc.episode = none →
      w' = w.upd st fun x => { x with tc := { x.tc with state := .idle }, wire := .unknown, wirePlace := .nowhere })
    ∧ ∀ e, x.state = .aborting → x.tc.episode = some e →
      w' = ((w.upd st fun x =>
          { x with tc := { x.tc with state := .idle, ok := false, fail := true, episode := none } }).report st
            (.thread e.kind e.contour .aborted e.attempts e.offset)).upd st fun x =>
              { x with wire := .unknown, wirePlace := .nowhere }

/-- An operation that has left the pair at a STOPPED or FAULT at progress `p`, by its kind (R60, R61, R62, R102, R105, R106,
R108, R158; the attempt of a lockout in a teardown is log entry 8's, that nothing returns there log entry 15's). -/
def Works.OpEnds (w : Works) (st : St) (body : OpBody) (p : Nat) (w' : Works) : Prop :=
  let x := w.station st
  let joins : Nat → Works := fun q =>
    if x.state = .aborting then w
    else w.upd st fun x => { x with returned := x.returned ++ [{ body := body, progress := q }] }
  match body with
  | .move _ _ _ _ (.mainEntry id k) => w.EntryReturns st id k p false w'
  | .move _ _ _ _ (.tailEntry id k) => w.EntryReturns st id k p true w'
  | .move _ _ _ _ (.traverse _ _) | .move _ _ _ _ .entryTravel | .move _ _ _ _ .passTravel
  | .move _ _ _ _ .recoveryTravel | .move _ _ _ _ (.directive _) | .dwell _ _ => w' = joins p
  | .thread _ => w.ThreadEnds st w'
  | .confirm =>
    (x.tc.episode = none → w' = w)
      ∧ ∀ e, x.tc.episode = some e →
        let v := w.upd st fun x =>
          { x with
            pair := []
            tc := { x.tc with
              state := .idle, episode := some { e with attempts := e.attempts + 1, reason := some .lockout } } }
        (e.lockoutPending = false → w.ThreadEnds st w')
          ∧ (e.lockoutPending = true → x.state ≠ .aborting → w' = v)
          ∧ (e.lockoutPending = true → x.state = .aborting → v.ThreadEnds st w')
  | .abandon =>
    (x.state = .aborting → w.ThreadEnds st w')
      ∧ (x.state ≠ .aborting →
        w' = w.upd st fun x =>
          { x with
            tc := { x.tc with state := .idle }, returned := x.returned ++ [{ body := .abandon, progress := 0 }] })
  | .wireCut purpose =>
    (purpose ≠ .teardown ∨ x.state ≠ .aborting → w' = joins 0)
      ∧ (purpose = .teardown → x.state = .aborting →
        w' = w.upd st fun x => { x with wire := .unknown, wirePlace := .nowhere })

/-- The operations of a pair end one after another, the oldest at progress `p`, those behind it unstarted (R60). -/
def Works.OpsEnd (st : St) : List Op → Nat → Works → Works → Prop
  | [], _, w, w' => w' = w
  | o :: rest, p, w, w' => ∃ u : Works, w.OpEnds st o.body p u ∧ Works.OpsEnd st rest 0 u w'

/-- A charged break is settled, steps 2 to 6 of R116, with the position of the move that the STOP's answer named, if any:
the broken work's returned operations are cleared, the break is counted and reported, WIRE_BREAK is set, a recovery record
at step DUE is set up, and beyond the break limit the contour fails BREAK_LIMIT (R118), but not in a teardown (log entry
15). -/
def Works.BreakSettles (w : Works) (st : St) (position : Option (Nat × Nat)) (code : Option Byte) (w' : Works) : Prop :=
  let x := w.station st
  let bare := w.upd st fun x =>
    { x with
      breakPending := false, wirePlace := .nowhere, returned := x.returned.filter fun r => !r.body.isBrokenWork }
  ((∀ id, x.current = some id → w.contour? id = none) → w' = bare)
    ∧ ∀ id c, x.current = some id → w.contour? id = some c →
      let pass : Pass := if x.inPass id then .tail else .main
      let boundary := w.boundary st id c
      let count := c.prog.breaks + 1
      let v := (((bare.modContour id fun c => { c with prog := { c.prog with breaks := count } }).report st
          (.wireBreak id pass x.wirePlace (position.getD boundary) boundary count
            (decide (c.cfg.breakLimit < count)))).raise flagWireBreak).upd st fun x' =>
        { x' with
          recovery := some
            { contour := id, pass := pass, place := x.wirePlace, path := none, step := .due, next := none } }
      (count ≤ c.cfg.breakLimit ∨ x.state = .aborting → w' = v)
        ∧ (c.cfg.breakLimit < count → x.state ≠ .aborting →
          v.Fails st id { c with prog := { c.prog with breaks := count } } .breakLimit code w')

/-- The activity that goes with the work of a contour when its recovery record goes (R54, R121, R123, R125): TAB_PASS in a
pass, CUTTING in a main pass, and otherwise that of its state (log entry 18). -/
def Contour.returnsTo (c : Contour) (pass : Bool) : Activity :=
  if pass then .tabPass
  else if c.state = .cutting then .cutting
  else if c.state = .tailIntake then .tailIntake
  else if c.state = .closing then .closing
  else if c.state = .entering then .entering
  else .waiting

/-- The recovery of the current contour, whose record is `c`, ends (R123, R125): the recovery record is removed and the
activity returns to CUTTING or TAB_PASS. In a tab pass approach next stands past the traverse part, so that the boundary
entry is issued next (R139; log entry 32). -/
def Works.RecoveryEnds (w : Works) (st : St) (c : Contour) (w' : Works) : Prop :=
  w' = w.upd st fun x =>
    { x with
      recovery := none
      activity := c.returnsTo x.pass.isSome
      pass := x.pass.map fun r =>
        { r with work := r.work.map fun p => { p with next := max p.next (c.traversePart p).length } } }

/-- What follows the success of an episode of this kind, asked for by the current contour (R66, R103, R114, R123, R124, R134):
the wire is THREADED at the place of the kind. A recovery ends after IN_KERF, and after START_HOLE goes to step TRAVERSE, or
ends with nothing to traverse; without a recovery a pass contour goes to step APPROACH, and a contour that is entered to
CUTTING. -/
def Works.SuccessFollows (w : Works) (st : St) (kind : EpisodeKind) (w' : Works) : Prop :=
  let x := w.station st
  let v := w.upd st fun x =>
    { x with wire := .threaded, wirePlace := if kind = .startHole then .startHole else .inCut }
  ((∀ id, x.current = some id → w.contour? id = none) → w' = v)
    ∧ ∀ id c, x.current = some id → w.contour? id = some c →
      (x.recovery ≠ none → kind = .inKerf ∨ w.traverseList st id c = [] → v.RecoveryEnds st c w')
        ∧ (∀ r, x.recovery = some r → kind = .startHole → w.traverseList st id c ≠ [] →
          w' = v.upd st fun x => { x with recovery := some { r with step := .traverse, next := some 0 } })
        ∧ (x.recovery = none → x.inPass id = true →
          w' = v.upd st fun x =>
            { x with
              pass := x.pass.map fun r => { r with work := r.work.map fun p => { p with step := .approach, next := 0 } } })
        ∧ (x.recovery = none → x.inPass id = false →
          w' = (v.modContour id fun c => { c with state := .cutting }).upd st fun x => { x with activity := .cutting })

/-- An episode with nothing outstanding ends with outcome ABORTED (R108): its THREAD report is built, and the wire is UNKNOWN
when a clearance was due and as it was otherwise. An episode with an operation outstanding goes on. -/
def Works.IdleEpisodeEnds (w : Works) (st : St) (w' : Works) : Prop :=
  let t := (w.station st).tc
  (t.episode = none ∨ t.state ≠ .idle → w' = w)
    ∧ ∀ e, t.episode = some e → t.state = .idle →
      w' = ((w.upd st fun x => { x with tc := { x.tc with ok := false, fail := true, episode := none } }).report st
          (.thread e.kind e.contour .aborted e.attempts e.offset)).upd st fun x =>
        { x with
          wire := if e.clearanceDue then .unknown else x.wire
          wirePlace := if e.clearanceDue then .nowhere else x.wirePlace }

/-- A teardown begins (R157, R158): the station is ABORTING with its cause, its holds, catch wait, returned operations and
waiting record are gone, an episode with nothing outstanding ends, and a MOVE, DWELL or THREAD outstanding is stopped. -/
def Works.TeardownBegins (w : Works) (st : St) (cause : TeardownCause) (w' : Works) : Prop :=
  let v : Works :=
    { w.upd st fun x =>
        { x with
          state := .aborting, holds := Holds.none, catchWait := none, returned := [], failureCutDue := false
          teardown := some cause } with
      pool := { w.pool with waiting := w.pool.waiting.set st none } }
  ∃ u : Works, v.IdleEpisodeEnds st u
    ∧ w' = u.upd st fun x => { x with stopAwaited := x.stopAwaited || x.pair.any fun o => o.body.stoppable }

/-- Drive loss (R63, R116): the pair is emptied unanswered, no STOP is awaited and the wire is UNKNOWN; a break that is still
charged is settled with no answer to take; then an ACTIVE or HELD station is torn down with cause DRIVE_LOST, an ABORTING one
goes on with an episode that has nothing outstanding ended, and an IDLE one does nothing else. The wire place is kept until
the settlement (log entry 6). -/
def Works.DriveLost (w : Works) (st : St) (w' : Works) : Prop :=
  let x := w.station st
  let v := w.upd st fun x =>
    { x with pair := [], stopAwaited := false, wire := .unknown, tc := { x.tc with state := .idle } }
  ∃ u : Works, (x.breakPending = false → u = v) ∧ (x.breakPending = true → v.BreakSettles st none none u)
    ∧ (let bare := u.upd st fun x => { x with wirePlace := .nowhere }
      (x.state = .active ∨ x.state = .held → bare.TeardownBegins st .driveLost w')
        ∧ (x.state = .aborting → bare.IdleEpisodeEnds st w')
        ∧ (x.state = .idle → w' = bare))

/-! ## When a request is there to be taken (R178 to R180) -/

/-- `f` is the oldest frame of the management buffer that belongs to unit `u`, and `rest` the buffer without it. -/
def State.oldest (s : State) (u : MgmtUnit) (f : MgmtFrame) (rest : List MgmtFrame) : Prop :=
  ∃ before after : List MgmtFrame,
    s.mgmt = before ++ f :: after ∧ (∀ g ∈ before, g.unit ≠ u.code) ∧ f.unit = u.code ∧ rest = before ++ after

/-- Unit `u` has as its oldest frame a well-formed request of this code and argument length, with authority `a`, and the
reply queue has room (R179, R180). -/
def State.offers (s : State) (u : MgmtUnit) (code : Byte) (len : Nat) (a : Authority) (f : MgmtFrame)
    (rest : List MgmtFrame) : Prop :=
  s.oldest u f rest ∧ f.request = code ∧ s.replies.length + s.reserved < Config.replyPlaces
    ∧ authorityOf f.authority = some a ∧ f.args.length = len

end Sys2Proof.Machine

namespace Sys2Proof

open Sys2Proof.Machine

/-- The unit, the request code (12.6) and the argument length (12.3) of each command that is a management request. -/
def Instr.requestOf : Instr → Option (MgmtUnit × Byte × Nat)
  | .summary => some (.part, 0, 0)
  | .timeSet => some (.part, 1, 4)
  | .timeRead => some (.part, 2, 0)
  | .beginProgram => some (.station, 0, 4)
  | .hold => some (.station, 1, 1)
  | .resume => some (.station, 2, 1)
  | .confirm => some (.station, 3, 1)
  | .skipContour => some (.station, 4, 1)
  | .retry => some (.station, 5, 1)
  | .abort => some (.station, 6, 1)
  | .status => some (.station, 7, 1)
  | .setStation => some (.station, 8, 6)
  | .defineContour => some (.contour, 0, 15)
  | .deleteContour => some (.contour, 1, 1)
  | .readContour => some (.contour, 2, 1)
  | .setPlan => some (.plan, 0, 7)
  | .readPlan => some (.plan, 1, 1)
  | .kerfStatus => some (.kerf, 0, 0)
  | .gapConfig => some (.gap, 0, 9)
  | .gapSingle => some (.gap, 1, 1)
  | .gapRead => some (.gap, 2, 1)
  | .gapClear => some (.gap, 3, 1)
  | .gapResetExtremes => some (.gap, 4, 1)
  | .senseConfig => some (.sense, 0, 4)
  | .senseRead => some (.sense, 1, 0)
  | .noticeEnable => some (.notice, 0, 2)
  | .noticeRead => some (.notice, 1, 0)
  | .noticeClear => some (.notice, 2, 2)
  | .storeRead => some (.store, 0, 0)
  | .storeWrite => some (.store, 1, 8)
  | .partReset | .pathFrame _ | .mgmtFrame _ | .linkError _ | .unknownUnitRequest | .storeWriteDone
  | .conversionEnd _ | .breakEdge _ | .catchEdge _ | .guardEdge _ | .senseLevelChange _ _ _ | .done _ _
  | .stopped _ _ _ | .fault _ _ _ _ | .cut _ | .probe _ _ | .probeEnd _ | .threaded _ | .abandoned _
  | .portLinkDown _ _ | .catchWaitExpiry _ | .upstreamFrameSent | .unknownRequest _ => none

end Sys2Proof
end

