-- ==== Sys2Proof/WellFormed.lean ====
section
/-! DEFINITION. What a command must satisfy to be one the cell link can carry: a frame is at most 64 bytes from its
length byte to its check (R177), so a body is at most 60 bytes. -/

namespace Sys2Proof

open Sys2Proof.Machine

/-- A path body is at most 60 bytes, 13 of them fixed (R177, 12.2). -/
def Machine.PathFrame.wf (f : PathFrame) : Bool := f.rest.length ≤ 47

/-- A management body is at most 60 bytes, four of them fixed (R177, 12.3). -/
def Machine.MgmtFrame.wf (f : MgmtFrame) : Bool := f.args.length ≤ 56

/-- The well-formedness of a command, one case per constructor. -/
def Instr.wf (i : Instr) : Bool :=
  match i with
  | .pathFrame f => f.wf
  | .mgmtFrame f => f.wf
  | .partReset | .linkError _ | .unknownUnitRequest | .summary | .timeSet | .timeRead | .beginProgram | .hold
  | .resume | .confirm | .skipContour | .retry | .abort | .status | .setStation | .defineContour | .deleteContour
  | .readContour | .setPlan | .readPlan | .kerfStatus | .gapConfig | .gapSingle | .gapRead | .gapClear
  | .gapResetExtremes | .senseConfig | .senseRead | .noticeEnable | .noticeRead | .noticeClear | .storeRead
  | .storeWrite | .storeWriteDone | .conversionEnd _ | .breakEdge _ | .catchEdge _ | .guardEdge _
  | .senseLevelChange _ _ _ | .done _ _ | .stopped _ _ _ | .fault _ _ _ _ | .cut _ | .probe _ _ | .probeEnd _
  | .threaded _ | .abandoned _ | .portLinkDown _ _ | .catchWaitExpiry _ | .upstreamFrameSent
  | .unknownRequest _ => true

end Sys2Proof
end

