-- ==== Sys2Proof/Certificates/Slice0/Obligations.lean ====
section
/-! DEFINITION. The statements about the part, one `def Obligations.<Name> : Prop` each. Each docstring names the rule it
comes from, and the log entry of notes/assumptions where a clause rests on a choice of the model. -/

section Statements

open Sys2Proof Sys2Proof.Machine

/-! ## The queue of commands, PART RESET and the cell link -/

/-- One step takes the command at the front of the queue and is that command's meaning on the queue's rest. With no command
waiting, a step counts one microsecond of the time base (R187), takes up what has fallen due (a reservation request that is
held, log entry 33) and lets the upstream arbiter look at the lane; that a step then stands for one microsecond is the model's
choice (log entry 10). -/
def Obligations.StepRunsTheFrontCommand : Prop :=
  (∀ (c : Instr) (rest : List Instr) (s : State),
      step { s with pending := c :: rest } = exec c { s with pending := rest })
    ∧ ∀ s : State, s.pending = [] →
      step s =
          .next ({ s with works := ({ s.works with time := s.works.time + 1 } : Works).settle 0 } : State).upstream
        ∧ (s.works.time.toNat = 4294967295 → (s.works.time + 1).toNat = 0)
        ∧ (s.works.time.toNat ≠ 4294967295 → (s.works.time + 1).toNat = s.works.time.toNat + 1)

/-- PART RESET leaves every table empty, every station as R51, R80, R95 and R110 give, the Kerf Record Store as R94 gives
and the link as R191 gives; a path frame is then refused NOPROGRAM (R51). The pins keep their levels (R173). -/
def Obligations.PartResetLeavesTheTablesGiven : Prop :=
  ∀ s : State, ∃ t : State, exec .partReset s = .next t
    ∧ t.pending = s.pending ∧ t.mgmt = [] ∧ t.replies = [] ∧ t.lane = none ∧ t.lastServed = 3 ∧ t.linkErrors = 0
    ∧ t.works.time = 0 ∧ t.works.contours = [] ∧ t.works.pool.free = 4096
    ∧ (∀ st, t.works.pool.waiting.get st = none) ∧ t.works.pool.lastGranted = 3
    ∧ t.gap.inProgress = { input := .reference, single := false } ∧ t.gap.scan = .station 0
    ∧ t.gap.pendingSingle = none ∧ t.gap.outstanding = none ∧ t.gap.offset = 0 ∧ t.store.writing = none
    ∧ (∀ st, t.works.station st =
        { adm := { program := none, openContour := none, queue := [], handles := 0, lastAssigned := 7 }
          tc :=
            { state := .idle, episode := none, ok := false, fail := false, staged := none
              params := { lockCount := 4, offsetBound := 5, inKerfLimit := 2, relock := .retry, gapHold := false } }
          state := .idle, activity := .waiting, wire := .unknown, wirePlace := .nowhere, holds := Holds.none
          current := none, pair := [], nextIssue := 0, stopAwaited := false, returned := [], underrunReported := false
          closing := none, catchWait := none, deferred := [], completed := 0, failed := 0, lost := 0, recovery := none
          pass := none, breakPending := false, failureCutDue := false, directiveMarks := [], endProgram := none
          teardown := none, kerfRequest := .none, linkUp := true, reports := [] })
    ∧ (∀ st k, t.line st k = { enable := false, edge := .rising, level := (s.line st k).level })
    ∧ ∀ (f : PathFrame) st, t.works.judge st f = some .noProgram

/-- PART RESET reads the calibration store (R188): a valid store gives each channel its gain; an invalid one gives 4095
each, sets STORE_INVALID and makes a notice pending (R184, R185). A write in progress ends with the store invalid
(R189). The other values of a channel are those of R165. -/
def Obligations.PartResetReadsTheCalibrationStore : Prop :=
  ∀ s : State, ∃ t : State, exec .partReset s = .next t
    ∧ (s.store.writing = none → t.store.gains = s.store.gains ∧ t.store.valid = s.store.valid)
    ∧ (s.store.writing ≠ none → t.store.valid = false)
    ∧ t.works.notices.enables = 0xFFFF
    ∧ (t.store.valid = true → t.works.notices.flags = 0 ∧ t.works.notices.pending = false)
    ∧ (t.store.valid = false → t.works.notices.flags = bit16 15 ∧ t.works.notices.pending = true)
    ∧ ∀ st, t.gap.channels.get st =
        { cfg :=
            { mode := .off, window := 64, threshold := 400, ratio := 30
              gain := if t.store.valid then t.store.gains.get st else 4095 }
          count := 0, shorts := 0, latest := none, lastRatio := none, maximum := 0, minimum := 100, alarm := false }

/-- The bytes between two delimiters form no frame exactly when their number exceeds 64 or does not agree with the length
byte, the check does not match, the class is neither PATH nor MGMT, or they are fewer than the smallest frame of the
class (R177). Such bytes, and a PATH frame for a station above 3, are counted and set LINK_ERROR, and change nothing
else (R38). -/
def Obligations.FramesThatFailTheirTestsAreLinkErrors : Prop :=
  (∀ bytes : List Byte, receiveFrame bytes = none ↔
      (64 < bytes.length ∨ (byteAt bytes 0).toNat + 3 ≠ bytes.length
        ∨ bytes.drop (bytes.length - 2) ≠ checkBytes (frameCheck (bytes.take (bytes.length - 2)))
        ∨ 1 < (byteAt bytes 1).toNat
        ∨ (byteAt bytes 1 = 0 ∧ bytes.length < 17) ∨ (byteAt bytes 1 = 1 ∧ bytes.length < 8)))
    ∧ ∀ s : State,
      let t : State :=
        { s with
          linkErrors := if s.linkErrors < 65535 then s.linkErrors + 1 else 65535
          works := { s.works with notices := s.works.notices.raise flagLinkError } }
      (∀ bytes, receiveFrame bytes = none → exec (.linkError bytes) s = .next t.upstream)
        ∧ ∀ f : PathFrame, 3 < f.station.toNat → exec (.pathFrame f) s = .next t.upstream

/-- A MGMT frame joins the tail of the management buffer; a transaction number of 0 or 255, or a buffer of 8 frames, makes
it a link error (R178). -/
def Obligations.ManagementFramesJoinTheBuffer : Prop :=
  ∀ (f : MgmtFrame) (s : State),
    (f.tn ≠ 0 → f.tn ≠ 255 → s.mgmt.length < 8 →
        exec (.mgmtFrame f) s = .next ({ s with mgmt := s.mgmt ++ [f] } : State).upstream)
      ∧ (f.tn = 0 ∨ f.tn = 255 ∨ 8 ≤ s.mgmt.length →
        exec (.mgmtFrame f) s =
          .next ({ s with
            linkErrors := if s.linkErrors < 65535 then s.linkErrors + 1 else 65535
            works := { s.works with notices := s.works.notices.raise flagLinkError } } : State).upstream)

/-- A request is taken only as its unit's oldest frame and with room for its reply; otherwise its command finds nothing to
take and only the upstream arbiter looks at the lane (log entry 2). A frame taken with an authority that names none, or
with a wrong length, is answered BADREQ (R179). -/
def Obligations.RequestsAreTakenInOrderAndChecked : Prop :=
  ∀ (c : Instr) (u : MgmtUnit) (code : Byte) (len : Nat) (s : State), c.requestOf = some (u, code, len) →
    ((∀ g ∈ s.mgmt, g.unit ≠ u.code) → exec c s = .next s.upstream)
      ∧ ∀ f rest, s.oldest u f rest →
        (f.request ≠ code ∨ 16 ≤ s.replies.length + s.reserved → exec c s = .next s.upstream)
          ∧ (f.request = code → s.replies.length + s.reserved < 16 →
              1 < f.authority.toNat ∨ f.args.length ≠ len →
              exec c s = .next (({ s with mgmt := rest } : State).answer f .badReq .empty).upstream)

/-- A frame whose request code names none of its unit's requests, and a frame whose unit field names none of the nine
units, are answered BADREQ with their own fields as received (R179). -/
def Obligations.UnknownRequestsAreAnsweredBadReq : Prop :=
  ∀ s : State, s.replies.length + s.reserved < 16 →
    (∀ u f rest, s.oldest u f rest → u.requests ≤ f.request.toNat →
        exec (.unknownRequest u) s = .next (({ s with mgmt := rest } : State).answer f .badReq .empty).upstream)
      ∧ (∀ before f after, s.mgmt = before ++ f :: after → (∀ g ∈ before, g.unit.toNat ≤ 8) → 8 < f.unit.toNat →
        exec .unknownUnitRequest s =
          .next (({ s with mgmt := before ++ after } : State).answer f .badReq .empty).upstream)
      ∧ ∀ (f : MgmtFrame) k d, (s.answer f k d).replies =
          s.replies ++ [{ tn := f.tn, unit := f.unit, request := f.request, status := k, data := d }]

/-- The upstream lane, when its frame is sent (R183, R185): the oldest built reply; else a pending notice with the flags set
and enabled at this moment; else the report at the head of the first non-empty queue in rotation after the last station
served; a notice with nothing to carry is withdrawn. While a frame is being sent nothing is chosen. That the command given
with no frame on the lane lets the arbiter look at the lane, as any command does, is the model's choice (log entry 36). -/
def Obligations.UpstreamLaneServesRepliesNoticesReports : Prop :=
  (∀ k : St, rotation k = [k + 1, k + 2, k + 3, k])
    ∧ (∀ (s : State) x, s.lane = some x → s.upstream = s)
    ∧ ∀ s : State,
      let u := s.works.notices
      let quiet : Works := { s.works with notices := { u with pending := false } }
      (∀ r rest, s.replies = r :: rest →
          exec .upstreamFrameSent s = .next { s with lane := some (.reply r), replies := rest })
        ∧ (s.replies = [] → u.pending = true → u.flags &&& u.enables ≠ 0 →
          exec .upstreamFrameSent s =
            .next { s with lane := some (.notice (u.flags &&& u.enables) s.works.time), works := quiet })
        ∧ (s.replies = [] → u.pending = false ∨ u.flags &&& u.enables = 0 →
          (∀ before st after r rest, rotation s.lastServed = before ++ st :: after →
              (∀ b ∈ before, (s.works.station b).reports = []) → (s.works.station st).reports = r :: rest →
              exec .upstreamFrameSent s =
                .next { s with
                  lane := some (.report st r), lastServed := st
                  works := quiet.upd st fun x => { x with reports := rest } })
            ∧ ((∀ st, (s.works.station st).reports = []) →
              exec .upstreamFrameSent s = .next { s with lane := none, works := quiet }))

/-- A report joins its station's queue with the time base at that moment, and one that finds 32 waiting is dropped, counted
up to 255 and sets REPORT_LOSS (R182). A PROGRESS update changes an unsent PROGRESS of the present program in place, with
consumed through and the credits of this moment (R46); that the report changed in place keeps the time stamp of its
building is the model's reading (log entry 5). A MARK report also makes its handle FREE, and several go one after another
(R48, R78). -/
def Obligations.ReportsJoinTheirQueueOrAreCounted : Prop :=
  ∀ (w : Works) (st : St) (b : ReportBody),
    ((w.station st).reports.length < 32 →
        w.report st b = w.upd st fun x => { x with reports := x.reports ++ [{ body := b, stamp := w.time }] })
      ∧ (32 ≤ (w.station st).reports.length →
        w.report st b =
          (w.upd st fun x => { x with lost := if x.lost < 255 then x.lost + 1 else 255 }).raise flagReportLoss)
      ∧ (∀ p, (w.station st).adm.program = some p →
        ((∃ r ∈ (w.station st).reports, r.isPresentProgress = true) →
            w.progressUpdate st = w.upd st fun x =>
              { x with reports := x.reports.map (Report.refresh p.consumed (128 - x.adm.queue.length)) })
          ∧ ((∀ r ∈ (w.station st).reports, r.isPresentProgress = false) →
            w.progressUpdate st =
              w.report st (.progress p.tag p.consumed (128 - (w.station st).adm.queue.length) true)))
      ∧ ((w.station st).adm.program = none → w.progressUpdate st = w)
      ∧ (∀ r : Report, r.isPresentProgress = true ↔ ∃ tag c n, r.body = .progress tag c n true)
      ∧ (∀ (c : Seq) (n : Nat) (r : Report),
        (∀ tag c' n', r.body = .progress tag c' n' true →
            Report.refresh c n r = { body := .progress tag c n true, stamp := r.stamp })
          ∧ (r.isPresentProgress = false → Report.refresh c n r = r))
      ∧ ∀ (m : MarkRef) (ms : List MarkRef) (o : MarkOutcome),
        w.markReport? st none o = w ∧ w.markReport? st (some m) o = w.markReport st m o
          ∧ (w.markReport st m o =
            (w.report st (.mark m.handle m.seq m.contour o)).upd st fun x =>
              { x with adm := { x.adm with handles := x.adm.handles &&& ~~~ bit8 m.handle } })
          ∧ w.markReports st [] o = w ∧ w.markReports st (m :: ms) o = (w.markReport st m o).markReports st ms o

/-- The frame check (R192): a register of ones, each byte from its most significant bit down, one shift a bit and the
polynomial when the bits differ; the nine digits give 29B1; every upstream frame ends with its check; a downstream frame
whose check or length byte differs forms no frame; a flags byte with any of bits 4 to 7 set fails the field checks. -/
def Obligations.FrameCheckIsComputedBitByBit : Prop :=
  frameCheck [0x31, 0x32, 0x33, 0x34, 0x35, 0x36, 0x37, 0x38, 0x39] = 0x29B1
    ∧ frameCheck [] = 0xFFFF
    ∧ (∀ bytes b, frameCheck (bytes ++ [b]) =
        [7, 6, 5, 4, 3, 2, 1, 0].foldl
          (fun (reg : BitVec 16) i => if b.getLsbD i = reg.getLsbD 15 then reg <<< 1 else (reg <<< 1) ^^^ 0x1021) (frameCheck bytes))
    ∧ (∀ u : UpFrame, u.bytes.drop (u.bytes.length - 2)
        = checkBytes (frameCheck (u.bytes.take (u.bytes.length - 2))))
    ∧ (∀ bytes : List Byte, bytes.drop (bytes.length - 2) ≠ checkBytes (frameCheck (bytes.take (bytes.length - 2)))
        ∨ (byteAt bytes 0).toNat + 3 ≠ bytes.length → receiveFrame bytes = none)
    ∧ ∀ f : PathFrame, 16 ≤ f.flags.toNat → f.fieldsOk = false

/-- Every well-formed PATH and MGMT frame is read back from its bytes with every field as it was (12.1 to 12.3). -/
def Obligations.FramesAreReadBackFromTheirBytes : Prop :=
  (∀ f : PathFrame, f.wf = true → receiveFrame f.bytes = some (.path f))
    ∧ ∀ f : MgmtFrame, f.wf = true → receiveFrame f.bytes = some (.mgmt f)

/-! ## Management requests -/

/-- SUMMARY (R109), TIME_READ (R187), KERF_STATUS (R93), SENSE_READ (R175) and STATUS (R79) answer OK with the values of
this moment and change nothing else; STATUS refuses a station above 3 with RANGE. That this RANGE reply carries no results
is the model's reading (log entry 26). -/
def Obligations.ReadingRequestsAnswerAndChangeNothing : Prop :=
  ∀ (s : State) (a : Authority) (f : MgmtFrame) (rest : List MgmtFrame),
    let s0 : State := { s with mgmt := rest }
    let mine : St → List Contour := fun st => (s.works.contours.map Prod.snd).filter fun c => c.cfg.station == st
    (s.offers .part 0 0 a f rest →
        exec .summary s = .next (s0.answer f .ok
          (.summary
            (PerStation.ofStations fun st =>
              { ok := (s.works.station st).tc.ok, fail := (s.works.station st).tc.fail
                state := (s.works.station st).state })
            s.linkErrors)).upstream)
      ∧ (s.offers .part 2 0 a f rest →
        exec .timeRead s = .next (s0.answer f .ok (.time s.works.time)).upstream)
      ∧ (s.offers .kerf 0 0 a f rest →
        exec .kerfStatus s = .next (s0.answer f .ok
          (.kerf s.works.pool.free
            (PerStation.ofStations fun st =>
              { unallocated := ((mine st).map fun c => c.prog.reservation - c.kerf.length).sum
                allocated := ((mine st).map fun c => c.kerf.length).sum
                contours := ((mine st).filter fun c => decide (0 < c.prog.reservation)).length })
            s.works.pool.waiting s.works.pool.lastGranted)).upstream)
      ∧ (s.offers .sense 1 0 a f rest →
        exec .senseRead s = .next (s0.answer f .ok (.lines s.lines)).upstream)
      ∧ (s.offers .station 7 1 a f rest →
        (3 < (byteAt f.args 0).toNat → exec .status s = .next (s0.answer f .range .empty).upstream)
          ∧ ∀ st, stationOf (byteAt f.args 0) = some st →
            let x := s.works.station st
            exec .status s = .next (s0.answer f .ok
              (.stationStatus
                { state := x.state, activity := x.activity, wire := x.wire, holds := x.holds, current := x.current
                  pair := x.pair, stopAwaited := x.stopAwaited, returned := x.returned.length, closing := x.closing
                  catchTenths := catchTenths x.catchWait s.works.time, deferred := x.deferred, completed := x.completed
                  failed := x.failed, lost := x.lost, program := x.adm.program
                  credits := 128 - x.adm.queue.length, handles := x.adm.handles })).upstream)

/-- TIME_SET loads the time base and moves the expiry of every armed catch wait by the same amount, so that the time left on
it is unchanged; it answers OK with the value loaded and changes nothing else (R187). -/
def Obligations.TimeSetMovesTheCatchWaits : Prop :=
  ∀ (s : State) (a : Authority) (f : MgmtFrame) (rest : List MgmtFrame), s.offers .part 1 4 a f rest →
    let v := word32At f.args 0
    ∃ w : Works,
      exec .timeSet s = .next (({ s with mgmt := rest, works := w } : State).answer f .ok (.time v)).upstream
        ∧ w.time = v ∧ w.notices = s.works.notices ∧ w.contours = s.works.contours ∧ w.pool = s.works.pool
        ∧ ∀ st, ∃ wait, w.station st = { s.works.station st with catchWait := wait }
          ∧ ((s.works.station st).catchWait = none → wait = none)
          ∧ ∀ e, (s.works.station st).catchWait = some e →
            ∃ e', wait = some e' ∧ e' - v = e - s.works.time ∧ catchRemaining e' v = catchRemaining e s.works.time

/-- BEGIN_PROGRAM is checked in order: station above 3, tag 0, station not IDLE, BREAK line disabled. When it is accepted
admission opens the program, the station becomes ACTIVE and WAITING with its two counts at 0, and nothing else changes but
that reports waiting since before belong to the program before (R36, R46, R52). That a RANGE or STATE reply carries no
results is the model's reading (log entry 26). -/
def Obligations.BeginProgramOpensTheStation : Prop :=
  ∀ (s : State) (a : Authority) (f : MgmtFrame) (rest : List MgmtFrame), s.offers .station 0 4 a f rest →
    let s0 : State := { s with mgmt := rest }
    let tag := byteAt f.args 1
    let first := word16At f.args 2
    (3 < (byteAt f.args 0).toNat → exec .beginProgram s = .next (s0.answer f .range .empty).upstream)
      ∧ ∀ st, stationOf (byteAt f.args 0) = some st →
        (tag = 0 → exec .beginProgram s = .next (s0.answer f .range .empty).upstream)
          ∧ (tag ≠ 0 →
              (s.works.station st).state ≠ .idle ∨ (s.lines.get st).breakLine.enable = false →
              exec .beginProgram s = .next (s0.answer f .state .empty).upstream)
          ∧ (tag ≠ 0 → (s.works.station st).state = .idle → (s.lines.get st).breakLine.enable = true →
              exec .beginProgram s =
                .next (({ s0 with
                  works := s.works.upd st fun x =>
                    { x with
                      adm :=
                        { program :=
                            some { tag := tag, first := first, expected := first, consumed := first - 1, closed := false }
                          openContour := none, queue := [], handles := 0, lastAssigned := 7 }
                      state := .active, activity := .waiting, completed := 0, failed := 0, underrunReported := false
                      reports := x.reports.map Report.past } } : State).answer f .ok
                        (.opened tag first 128)).upstream)

/-- An event that brings hold reasons not yet in the set of an ACTIVE or HELD station adds them: the station is HELD, one
HELD report is built with the reasons added, the whole set, and the fault code or failure cause when its reason is among
those added, STATION_HELD is set, and a MOVE, DWELL or THREAD outstanding is stopped. Otherwise nothing changes (R144,
R145, R60). -/
def Obligations.HoldReasonsAreAddedOnce : Prop :=
  ∀ (w : Works) (st : St) (rs : Holds) (code : Option Byte) (cause : Option Cause),
    let x := w.station st
    let new := rs.without x.holds
    let all := x.holds.union new
    (((x.state = .active ∨ x.state = .held) ∧ new ≠ Holds.none →
        w.addHolds st rs code cause =
          ((((w.upd st fun x => { x with holds := all, state := .held }).report st
              (.held new all x.activity x.current (if new.driveFault then code else none)
                (if new.contourFailed then cause else none))).raise (flagStationHeld st)).upd st fun y =>
                  { y with stopAwaited := y.stopAwaited || y.pair.any fun o => o.body.stoppable })))
      ∧ (x.state = .idle ∨ x.state = .aborting ∨ new = Holds.none → w.addHolds st rs code cause = w)

/-- HOLD: a station above 3 gives RANGE and an IDLE or ABORTING one STATE; an ACTIVE or HELD one accepts it, and REQUEST is
added, which changes nothing when it is already present. The reply carries the station state and the set after the request
(R149, R150). That a RANGE reply carries no results is the model's choice (log entry 26). -/
def Obligations.HoldAddsRequest : Prop :=
  ∀ (s : State) (a : Authority) (f : MgmtFrame) (rest : List MgmtFrame), s.offers .station 1 1 a f rest →
    let s0 : State := { s with mgmt := rest }
    (3 < (byteAt f.args 0).toNat → exec .hold s = .next (s0.answer f .range .empty).upstream)
      ∧ ∀ st, stationOf (byteAt f.args 0) = some st →
        let x := s.works.station st
        (x.state = .idle ∨ x.state = .aborting →
            exec .hold s = .next (s0.answer f .state (.station x.state x.holds)).upstream)
          ∧ (x.state = .active ∨ x.state = .held → x.holds.request = true →
            exec .hold s = .next (s0.answer f .ok (.station x.state x.holds)).upstream)
          ∧ (x.state = .active ∨ x.state = .held → x.holds.request = false →
            exec .hold s =
              .next (({ s0 with works := s.works.addHolds st { request := true } none none } : State).answer f .ok
                (.station .held { x.holds with request := true })).upstream)

/-- RESUME is checked in order: not HELD gives STATE; GUARD in the set with the line at its active level gives LOCKED; none
of its six reasons in the set gives STATE. An accepted RESUME removes the six; with the set then empty the station is
ACTIVE and RESUMED is built, and the sequencer goes on (R146, R149, R151). That a RANGE reply carries no results is log
entry 26, that an accepted reply shows the state and set after the sequencer has gone on log entry 17. -/
def Obligations.ResumeClearsItsReasons : Prop :=
  ∀ (s : State) (a : Authority) (f : MgmtFrame) (rest : List MgmtFrame), s.offers .station 2 1 a f rest →
    let s0 : State := { s with mgmt := rest }
    (3 < (byteAt f.args 0).toNat → exec .resume s = .next (s0.answer f .range .empty).upstream)
      ∧ ∀ st, stationOf (byteAt f.args 0) = some st →
        let x := s.works.station st
        let g := (s.lines.get st).guardLine
        let guarded := x.holds.guard = true ∧ ((g.edge = .rising ∧ g.level = .high) ∨ (g.edge = .falling ∧ g.level = .low))
        let clears := x.holds.request = true ∨ x.holds.guard = true ∨ x.holds.straySlug = true ∨ x.holds.slug = true
          ∨ x.holds.gap = true ∨ x.holds.driveFault = true
        let left : Holds :=
          { noCatch := x.holds.noCatch, partRemoval := x.holds.partRemoval, contourFailed := x.holds.contourFailed }
        let w : Works :=
          if left = Holds.none then
            (s.works.upd st fun x => { x with holds := left, state := .active }).report st
              (.resumed .resume x.activity x.current)
          else s.works.upd st fun x => { x with holds := left }
        let w' := w.settle st
        (x.state ≠ .held → exec .resume s = .next (s0.answer f .state (.station x.state x.holds)).upstream)
          ∧ (x.state = .held → guarded →
            exec .resume s = .next (s0.answer f .locked (.station x.state x.holds)).upstream)
          ∧ (x.state = .held → ¬guarded → ¬clears →
            exec .resume s = .next (s0.answer f .state (.station x.state x.holds)).upstream)
          ∧ (x.state = .held → ¬guarded → clears →
            exec .resume s =
              .next (({ s0 with works := w' } : State).answer f .ok
                (.station (w'.station st).state (w'.station st).holds)).upstream)

/-- CONFIRM is refused STATE when the station is IDLE or ABORTING or its set holds neither NO_CATCH nor PART_REMOVAL. An
accepted CONFIRM removes them and satisfies the closing; a closing whose CUT has come completes at this moment when no
failure is pending; with the set then empty the station is ACTIVE (R146, R149, R152, R74). To become ACTIVE, here and in the
statements of SKIP_CONTOUR and RETRY, is R146's: a HELD station whose set is empty becomes ACTIVE and RESUMED is built with
the cause, the activity and the current contour; otherwise nothing changes. That a RANGE reply carries no results is log
entry 26, that an accepted reply shows the state and set after the sequencer has gone on log entry 17. -/
def Obligations.ConfirmSatisfiesTheClosing : Prop :=
  (∀ (w : Works) (st : St) (why : Clearing),
      let x := w.station st
      (x.state = .held → x.holds = Holds.none →
          w.resumeIfClear st why =
            (w.upd st fun x => { x with state := .active }).report st (.resumed why x.activity x.current))
        ∧ (x.state ≠ .held ∨ x.holds ≠ Holds.none → w.resumeIfClear st why = w))
    ∧ ∀ (s : State) (a : Authority) (f : MgmtFrame) (rest : List MgmtFrame), s.offers .station 3 1 a f rest →
    let s0 : State := { s with mgmt := rest }
    (3 < (byteAt f.args 0).toNat → exec .confirm s = .next (s0.answer f .range .empty).upstream)
      ∧ ∀ st, stationOf (byteAt f.args 0) = some st →
        let x := s.works.station st
        let waits := x.holds.noCatch = true ∨ x.holds.partRemoval = true
        let w1 := s.works.upd st fun x =>
          { x with
            holds := { x.holds with noCatch := false, partRemoval := false }
            catchWait := none
            closing := x.closing.map fun k => { k with satisfied := true } }
        (x.state = .idle ∨ x.state = .aborting ∨ ¬waits →
            exec .confirm s = .next (s0.answer f .state (.station x.state x.holds)).upstream)
          ∧ (x.state = .active ∨ x.state = .held → waits →
            ∃ w2 : Works,
              (∀ id c k, x.current = some id → s.works.contour? id = some c → x.closing = some k → c.state = .closing →
                  c.prog.pendingFailure = none → k.cutReceived = true → w2 = w1.complete st id)
                ∧ ((∀ id c, x.current = some id → s.works.contour? id = some c →
                    c.state ≠ .closing ∨ c.prog.pendingFailure ≠ none) ∨ (∀ k, x.closing = some k → k.cutReceived = false)
                    → w2 = w1)
                ∧ (let w' := (w2.resumeIfClear st .confirm).settle st
                  exec .confirm s =
                    .next (({ s0 with works := w' } : State).answer f .ok
                      (.station (w'.station st).state (w'.station st).holds)).upstream))

/-- SKIP_CONTOUR is refused STATE unless the station is ACTIVE or HELD with a pending failure of its current contour. An
accepted one removes the failure and CONTOUR_FAILED and takes the actions of R153 under SKIP, which `EndsFailed` lists: the
contour is FAILED with cause SKIPPED_BY_REQUEST and keeps its counts, its entries at the head of the queue are discarded
with their marks, consumed through and PROGRESS, its reservation and kerf record are released, nothing is left of its
recovery and closing, a wire cut is due when the wire is not UNTHREADED and none is outstanding, and CONTOUR_END is built;
the station then resumes if its set is empty (R149, R153, R155). A contour failure takes the same actions under SKIP with
its own cause, and under HALT is pending with CONTOUR_FAILED (R153, R154); that one HELD report carries DRIVE_FAULT beside it
when the event is a FAULT is log entry 16. That a RANGE reply carries no results is log entry 26, that the reply shows the
state and set after the sequencer has gone on log entry 17. -/
def Obligations.SkipContourEndsTheFailedContour : Prop :=
  (∀ (w : Works) (st : St) (id : Nat) (c : Contour) (cause : Cause) (code : Option Byte),
      (w.station st).current = some id → w.contour? id = some c →
      (c.cfg.policy = .skip →
          (w.raise flagContourFailed).EndsFailed st id c cause (w.failContour st cause code))
        ∧ (c.cfg.policy = .halt →
          w.failContour st cause code =
            ((w.raise flagContourFailed).modContour id fun c =>
              { c with prog := { c.prog with pendingFailure := some cause } }).addHolds st
                { contourFailed := true, driveFault := code.isSome } code (some cause)))
    ∧ ∀ (s : State) (a : Authority) (f : MgmtFrame) (rest : List MgmtFrame), s.offers .station 4 1 a f rest →
    let s0 : State := { s with mgmt := rest }
    (3 < (byteAt f.args 0).toNat → exec .skipContour s = .next (s0.answer f .range .empty).upstream)
      ∧ ∀ st, stationOf (byteAt f.args 0) = some st →
        let x := s.works.station st
        (x.state = .idle ∨ x.state = .aborting ∨ x.current = none
            ∨ (∃ id, x.current = some id ∧ ∀ c, s.works.contour? id = some c → c.prog.pendingFailure = none) →
            exec .skipContour s = .next (s0.answer f .state (.station x.state x.holds)).upstream)
          ∧ ∀ id c cause, x.state = .active ∨ x.state = .held → x.current = some id →
            s.works.contour? id = some c → c.prog.pendingFailure = some cause → c.cfg.station = st →
            (∀ g r, s.works.pool.waiting.get g = some r → r.contour ≠ id) →
            ∃ w1 : Works,
              (let w' := (w1.resumeIfClear st .skipContour).settle st;
                exec .skipContour s =
                  .next (({ s0 with works := w' } : State).answer f .ok
                    (.skipped (w'.station st).state (w'.station st).holds id .skippedByRequest)).upstream)
                ∧ Works.EndsFailed
                    (s.works.upd st fun x => { x with holds := { x.holds with contourFailed := false } }) st id c
                    .skippedByRequest w1
                ∧ w1.time = s.works.time
                ∧ w1.contour? id =
                  some
                    { c with
                      state := .failed
                      kerf := if c.prog.reservation = 0 then c.kerf else []
                      prog :=
                        { c.prog with
                          outcome := some .skippedByRequest, pendingFailure := none, reservation := 0 } }
                ∧ (∀ j ≠ id, ∃ r : Nat, w1.contour? j =
                    (s.works.contour? j).map fun c => { c with prog := { c.prog with reservation := r } })
                ∧ (∀ j ≠ st, ∃ act, w1.station j = { s.works.station j with activity := act })
                ∧ (w1.station st).adm.queue = x.adm.queue.dropWhile (fun e => e.contour == id)
                ∧ (w1.station st).holds = { x.holds with contourFailed := false }
                ∧ (w1.station st).current = none ∧ (w1.station st).recovery = none ∧ (w1.station st).closing = none
                ∧ (w1.station st).catchWait = none ∧ (w1.station st).wire = x.wire ∧ (w1.station st).pair = x.pair
                ∧ (w1.station st).failed = (if x.failed < 65535 then x.failed + 1 else 65535)
                ∧ (w1.station st).activity = (if x.pass.isSome then .tabPass else .waiting)
                ∧ ((w1.station st).failureCutDue = true ↔
                    x.wire ≠ .unthreaded ∧ ∀ o ∈ x.pair, o.body.isWireCut = false)

/-- RETRY is accepted when SKIP_CONTOUR would be. It removes the pending failure and CONTOUR_FAILED and sets the break count
to 0; the work it takes up is the one R156's table gives for what the contour holds, and the station then resumes if its
set is empty (R146, R156). Without a cut needed the recovery record goes and a wire cut still to come, or a closing not yet
satisfied, goes on under its own rule. That a RANGE reply carries no results is log entry 26, that an accepted reply shows
the state and set after the sequencer has gone on log entry 17. -/
def Obligations.RetryTakesTheContourUpAgain : Prop :=
  ∀ (s : State) (a : Authority) (f : MgmtFrame) (rest : List MgmtFrame), s.offers .station 5 1 a f rest →
    let s0 : State := { s with mgmt := rest }
    (3 < (byteAt f.args 0).toNat → exec .retry s = .next (s0.answer f .range .empty).upstream)
      ∧ ∀ st, stationOf (byteAt f.args 0) = some st →
        let x := s.works.station st
        (x.state = .idle ∨ x.state = .aborting ∨ x.current = none
            ∨ (∃ id, x.current = some id ∧ ∀ c, s.works.contour? id = some c → c.prog.pendingFailure = none) →
            exec .retry s = .next (s0.answer f .state (.station x.state x.holds)).upstream)
          ∧ ∀ id c cause, x.state = .active ∨ x.state = .held → x.current = some id →
            s.works.contour? id = some c → c.prog.pendingFailure = some cause →
            let w1 :=
              (s.works.modContour id fun c => { c with prog := { c.prog with pendingFailure := none, breaks := 0 } }).upd st
                fun x => { x with holds := { x.holds with contourFailed := false } }
            ∃ w2 : Works,
              (let w' := (w2.resumeIfClear st .retry).settle st;
                exec .retry s =
                  .next (({ s0 with works := w' } : State).answer f .ok
                    (.station (w'.station st).state (w'.station st).holds)).upstream)
                ∧ (x.recovery = none → c.state = .entering → w2 = w1.upd st fun x => { x with activity := .entering })
                ∧ (x.recovery = none → c.state = .tabCutting →
                  w2 = w1.upd st fun x =>
                    { x with
                      pass := x.pass.map fun r =>
                        { r with work := r.work.map fun p => { p with step := .travel, next := 0 } } })
                ∧ (∀ r, x.recovery = some r → c.needsCutting = true →
                  w2 = w1.upd st fun x =>
                    { x with
                      recovery := x.recovery.map fun r =>
                        { r with
                          place := .startHole, path := some .startHole, next := none
                          step := if x.wire = .unthreaded then .travel else .due } })
                ∧ (∀ r, x.recovery = some r → c.needsCutting = false → c.state = .cutting → c.mainEnded = true →
                  x.wire = .unthreaded → (∀ o ∈ x.pair, o.body.isWireCut = false) →
                  (∀ q ∈ x.returned, q.body.isWireCut = false) →
                  (w2.station st).recovery = none ∧ (w2.contour? id).map Contour.state = some .tailIntake
                    ∧ (w2.station st).activity = .tailIntake)
                ∧ (∀ r k, x.recovery = some r → c.state = .closing → x.closing = some k → k.cutReceived = true →
                  k.satisfied = true → (w2.contour? id).map Contour.state = some .complete
                    ∧ (w2.station st).recovery = none ∧ (w2.station st).current = none)
                ∧ (∀ r k, x.recovery = some r → c.state = .closing → x.closing = some k →
                  k.cutReceived = false ∨ k.satisfied = false →
                  w2 = w1.upd st fun x =>
                    { x with recovery := none, activity := if x.pass.isSome then .tabPass else .closing })
                ∧ (∀ r, x.recovery = some r → c.needsCutting = false → c.state = .cutting →
                  c.mainEnded = false ∨ x.wire ≠ .unthreaded ∨ (∃ o ∈ x.pair, o.body.isWireCut = true)
                    ∨ (∃ q ∈ x.returned, q.body.isWireCut = true) →
                  w2 = w1.upd st fun x =>
                    { x with recovery := none, activity := if x.pass.isSome then .tabPass else .cutting })
                ∧ (x.recovery = none → c.state ≠ .entering → c.state ≠ .tabCutting → w2 = w1)

/-- ABORT is refused STATE by an IDLE station, accepted with no further effect by an ABORTING one, and begins the teardown of
an ACTIVE or HELD one: ABORTING with cause REQUEST, an empty hold reason set, no catch wait, no waiting record, no
returned operation, an episode with nothing outstanding ended, and a STOP for a MOVE, DWELL or THREAD outstanding; the
queue, the contours and the pair stay until the drive is at rest (R157, R158). That a RANGE reply carries no results is log
entry 26, that an accepted reply shows the state and set after the sequencer has gone on (IDLE when the drive is at rest
already) log entry 17. -/
def Obligations.AbortBeginsTheTeardown : Prop :=
  ∀ (s : State) (a : Authority) (f : MgmtFrame) (rest : List MgmtFrame), s.offers .station 6 1 a f rest →
    let s0 : State := { s with mgmt := rest }
    (3 < (byteAt f.args 0).toNat → exec .abort s = .next (s0.answer f .range .empty).upstream)
      ∧ ∀ st, stationOf (byteAt f.args 0) = some st →
        let x := s.works.station st
        (x.state = .idle → exec .abort s = .next (s0.answer f .state (.station x.state x.holds)).upstream)
          ∧ (x.state = .aborting → exec .abort s = .next (s0.answer f .ok (.station x.state x.holds)).upstream)
          ∧ (x.state = .active ∨ x.state = .held →
            ∃ w1 : Works,
              (let w' := w1.settle st;
                exec .abort s =
                  .next (({ s0 with works := w' } : State).answer f .ok
                    (.station (w'.station st).state (w'.station st).holds)).upstream)
                ∧ w1.contours = s.works.contours ∧ w1.time = s.works.time
                ∧ w1.pool = { s.works.pool with waiting := s.works.pool.waiting.set st none }
                ∧ (∀ j ≠ st, w1.station j = s.works.station j)
                ∧ (w1.station st).state = .aborting ∧ (w1.station st).teardown = some .request
                ∧ (w1.station st).holds = Holds.none ∧ (w1.station st).catchWait = none ∧ (w1.station st).returned = []
                ∧ (w1.station st).pair = x.pair ∧ (w1.station st).adm = x.adm ∧ (w1.station st).deferred = x.deferred
                ∧ ((w1.station st).stopAwaited = true ↔
                  x.stopAwaited = true ∨ ∃ o ∈ x.pair, o.body.stoppable = true)
                ∧ (w1.station st).tc.episode = (if x.tc.state = .idle then none else x.tc.episode)
                ∧ s.works.TeardownBegins st .request w1)

/-- SET_STATION: a station above 3, or a value out of its range, gives RANGE; PLANNER authority on a station that is not
IDLE gives LOCKED. An accepted set is in force at once on an IDLE station, with no staged set left; otherwise it becomes
the staged set and the parameters stay (R111). That a RANGE reply carries no results is R111's own. -/
def Obligations.SetStationReplacesOrStages : Prop :=
  ∀ (s : State) (a : Authority) (f : MgmtFrame) (rest : List MgmtFrame), s.offers .station 8 6 a f rest →
    let s0 : State := { s with mgmt := rest }
    let n := (byteAt f.args 1).toNat
    let b := (byteAt f.args 2).toNat
    let k := (byteAt f.args 3).toNat
    let relock := (byteAt f.args 4).toNat
    let gapHold := (byteAt f.args 5).toNat
    let bad := 3 < (byteAt f.args 0).toNat ∨ n = 0 ∨ 15 < n ∨ b = 0 ∨ 7 < b ∨ k = 0 ∨ 7 < k ∨ 1 < relock ∨ 1 < gapHold
    (bad → exec .setStation s = .next (s0.answer f .range .empty).upstream)
      ∧ ∀ st, ¬bad → stationOf (byteAt f.args 0) = some st →
        let x := s.works.station st
        let p : Params :=
          { lockCount := n, offsetBound := b, inKerfLimit := k, relock := if relock = 0 then .retry else .fail
            gapHold := decide (gapHold = 1) }
        (a = .planner → x.state ≠ .idle →
            exec .setStation s = .next (s0.answer f .locked (.params x.tc.params x.tc.staged)).upstream)
          ∧ (x.state = .idle →
            exec .setStation s =
              .next (({ s0 with
                works := s.works.upd st fun x => { x with tc := { x.tc with params := p, staged := none } } } : State).answer
                  f .ok (.params p none)).upstream)
          ∧ (a = .service → x.state ≠ .idle →
            exec .setStation s =
              .next (({ s0 with
                works := s.works.upd st fun x => { x with tc := { x.tc with staged := some p } } } : State).answer
                  f .ok (.params x.tc.params (some p))).upstream)

/-- DEFINE_CONTOUR: ID 0, or any value R12 rules out, gives RANGE. A record that is FREE, DEFINED, or terminal and not the
open contour of its station, takes the nine values with its progress at 0, no outcome, state DEFINED and a fresh plan of
mode NONE and catch timeout 50; any other is LOCKED and keeps everything. No other record changes (R11, R12, R13, R19). -/
def Obligations.DefineContourWritesAFreshRecord : Prop :=
  ∀ (s : State) (a : Authority) (f : MgmtFrame) (rest : List MgmtFrame), s.offers .contour 0 15 a f rest →
    let s0 : State := { s with mgmt := rest }
    let id := (byteAt f.args 0).toNat
    let segments := (word16At f.args 8).toNat
    let leadIn := (byteAt f.args 10).toNat
    let permit := (byteAt f.args 11).toNat
    let limit := (byteAt f.args 12).toNat
    let attempts := (byteAt f.args 13).toNat
    let policy := (byteAt f.args 14).toNat
    let bad := 3 < (byteAt f.args 1).toNat ∨ segments < 2 ∨ 4095 < segments ∨ leadIn = 0 ∨ 15 < leadIn
      ∨ segments ≤ leadIn ∨ 15 < limit ∨ attempts = 0 ∨ 15 < attempts ∨ 1 < permit ∨ 1 < policy
    let present := (s.works.contour? id).map Contour.state
    let free := ∀ c, s.works.contour? id = some c → c.state = .defined ∨
      ((c.state = .complete ∨ c.state = .failed ∨ c.state = .aborted)
        ∧ (s.works.station c.cfg.station).adm.openContour ≠ some id)
    (id = 0 → exec .defineContour s = .next (s0.answer f .range (.contourId 0)).upstream)
      ∧ (id ≠ 0 → bad → exec .defineContour s = .next (s0.answer f .range (.contourState id present)).upstream)
      ∧ (id ≠ 0 → ¬bad → ¬free →
        exec .defineContour s = .next (s0.answer f .locked (.contourState id present)).upstream)
      ∧ ∀ st, id ≠ 0 → ¬bad → free → stationOf (byteAt f.args 1) = some st →
        ∃ w : Works,
          exec .defineContour s =
              .next (({ s0 with works := w } : State).answer f .ok (.contourState id (some .defined))).upstream
            ∧ w = { s.works with contours := w.contours }
            ∧ (∀ j ≠ id, w.contour? j = s.works.contour? j)
            ∧ w.contour? id = some
              { state := .defined
                cfg :=
                  { station := st, threadX := word24At f.args 2, threadY := word24At f.args 5, segments := segments
                    leadIn := leadIn, inKerf := decide (permit = 1), breakLimit := limit, attemptLimit := attempts
                    policy := if policy = 0 then .skip else .halt }
                prog :=
                  { arrived := 0, cursor := 0, breaks := 0, offset := 0, reservation := 0, pendingFailure := none
                    outcome := none }
                plan := { mode := .plain, timeout := 50 }
                mainEnded := false
                kerf := [] }

/-- DELETE_CONTOUR: ID 0 gives RANGE, a FREE record UNDEFINED. A record that is DEFINED, or terminal and not the open contour
of its station, becomes FREE with its plan, and no other record changes; any other is LOCKED (R11, R14). The premise is
the canonical form of the table, which every step keeps. -/
def Obligations.DeleteContourFreesTheRecord : Prop :=
  ∀ (s : State) (a : Authority) (f : MgmtFrame) (rest : List MgmtFrame), s.offers .contour 1 1 a f rest → s.tableLaw →
    let s0 : State := { s with mgmt := rest }
    let id := (byteAt f.args 0).toNat
    (id = 0 → exec .deleteContour s = .next (s0.answer f .range (.contourId 0)).upstream)
      ∧ (id ≠ 0 → s.works.contour? id = none →
        exec .deleteContour s = .next (s0.answer f .undefined (.contourState id none)).upstream)
      ∧ ∀ c, id ≠ 0 → s.works.contour? id = some c →
        let free := c.state = .defined ∨
          ((c.state = .complete ∨ c.state = .failed ∨ c.state = .aborted)
            ∧ (s.works.station c.cfg.station).adm.openContour ≠ some id)
        (¬free → exec .deleteContour s = .next (s0.answer f .locked (.contourState id (some c.state))).upstream)
          ∧ (free → ∃ w : Works,
            exec .deleteContour s = .next (({ s0 with works := w } : State).answer f .ok (.contourState id none)).upstream
              ∧ w = { s.works with contours := w.contours }
              ∧ w.contour? id = none ∧ ∀ j ≠ id, w.contour? j = s.works.contour? j)

/-- READ_CONTOUR and READ_PLAN: ID 0 gives RANGE, a FREE record UNDEFINED; otherwise OK with the record's state, its nine
configuration values and its progress, or with its state, plan, h and whether the main pass has ended. Neither changes
anything (R11, R15, R31). That a refused READ_PLAN reply carries no results is the model's reading (log entry 26). -/
def Obligations.ReadContourAndReadPlanChangeNothing : Prop :=
  ∀ (s : State) (a : Authority) (f : MgmtFrame) (rest : List MgmtFrame),
    let s0 : State := { s with mgmt := rest }
    let id := (byteAt f.args 0).toNat
    (s.offers .contour 2 1 a f rest →
        (id = 0 → exec .readContour s = .next (s0.answer f .range (.contourId 0)).upstream)
          ∧ (id ≠ 0 → s.works.contour? id = none →
            exec .readContour s = .next (s0.answer f .undefined (.contourState id none)).upstream)
          ∧ ∀ c, id ≠ 0 → s.works.contour? id = some c →
            exec .readContour s = .next (s0.answer f .ok (.contour id c.state c.cfg c.prog)).upstream)
      ∧ (s.offers .plan 1 1 a f rest →
        (id = 0 → exec .readPlan s = .next (s0.answer f .range .empty).upstream)
          ∧ (id ≠ 0 → s.works.contour? id = none →
            exec .readPlan s = .next (s0.answer f .undefined .empty).upstream)
          ∧ ∀ c, id ≠ 0 → s.works.contour? id = some c →
            exec .readPlan s =
              .next (s0.answer f .ok
                (.planRead { state := c.state, plan := c.plan, h := c.h, ended := c.mainEnded })).upstream)

/-- SET_PLAN is checked in R23's order: ID 0 gives RANGE, a FREE record UNDEFINED, a code that names no value or a catch
timeout of 0 RANGE, a tab ordinal out of bounds RANGE, and an edit the matrix or the late test refuses LOCKED. An accepted
edit replaces the whole plan and is a reading point of the sequencer; the reply carries the state, the plan after the
request, h and whether the main pass has ended (R23, R27, R29). That the last item is taken before the sequencer acts on
the edit is the model's choice (log entry 30). -/
def Obligations.SetPlanIsJudgedInOrder : Prop :=
  ∀ (s : State) (a : Authority) (f : MgmtFrame) (rest : List MgmtFrame), s.offers .plan 0 7 a f rest →
    let s0 : State := { s with mgmt := rest }
    let id := (byteAt f.args 0).toNat
    let mode := (byteAt f.args 1).toNat
    let t := (word16At f.args 2).toNat
    let approach := (byteAt f.args 4).toNat
    let confirm := (byteAt f.args 5).toNat
    let timeout := (byteAt f.args 6).toNat
    let bad := timeout = 0 ∨ 3 < mode ∨ (mode = 3 ∧ (1 < approach ∨ 2 < confirm))
    let plan : Plan :=
      { timeout := timeout
        mode :=
          if mode = 0 then .plain else if mode = 1 then .catcher else if mode = 2 then .pause
          else .tab t (if approach = 0 then .forward else .reverse)
            (if confirm = 0 then .plain else if confirm = 1 then .catcher else .pause) }
    (id = 0 → exec .setPlan s = .next (s0.answer f .range (.contourId 0)).upstream)
      ∧ (id ≠ 0 → s.works.contour? id = none →
        exec .setPlan s = .next (s0.answer f .undefined (.contourId id)).upstream)
      ∧ ∀ c, id ≠ 0 → s.works.contour? id = some c →
        let view : Plan → PlanView := fun p => { state := c.state, plan := p, h := c.h, ended := c.mainEnded }
        let outside := mode = 3 ∧ (t < c.cfg.leadIn + 2 ∨ c.cfg.segments < t)
        (bad ∨ outside → exec .setPlan s = .next (s0.answer f .range (.plan id (view c.plan))).upstream)
          ∧ (¬bad → ¬outside → s.works.editAllowed c plan a = false →
            exec .setPlan s = .next (s0.answer f .locked (.plan id (view c.plan))).upstream)
          ∧ (¬bad → ¬outside → s.works.editAllowed c plan a = true →
            exec .setPlan s =
              .next (({ s0 with
                works := (s.works.modContour id fun c => { c with plan := plan }).settle c.cfg.station } : State).answer
                  f .ok (.plan id (view plan))).upstream)

/-- The edit matrix of R25, the classes of R24 and the late test of R26: what `editAllowed` answers in every state, for
structure and confirmation edits, from either authority; and h is the highest ordinal among the main-pass entries, 0
without one. -/
def Obligations.PlanEditsFollowTheMatrix : Prop :=
  (∀ (c : Contour), (∀ e ∈ c.kerf, e.isMain = true → e.ordinal ≤ c.h)
      ∧ (c.h = 0 ∨ ∃ e ∈ c.kerf, e.isMain = true ∧ e.ordinal = c.h))
    ∧ ∀ (w : Works) (c : Contour) (p : Plan) (a : Authority),
      let structureEdit := c.plan.mode ≠ p.mode ∧ ∀ t ap cf cf', ¬(c.plan.mode = .tab t ap cf ∧ p.mode = .tab t ap cf')
      let late := c.mainEnded = false
        ∧ ¬(p.tabOrdinal? ≠ none ∧ c.plan.tabOrdinal? = none ∧ 32 ≤ (w.station c.cfg.station).deferred.length)
        ∧ ∀ t, p.tabOrdinal? = some t → c.h + 1 ≤ t
      (c.state = .defined ∨ c.state = .queued → w.editAllowed c p a = true)
        ∧ (c.state = .entering ∨ c.state = .cutting → ¬structureEdit → w.editAllowed c p a = true)
        ∧ (c.state = .entering ∨ c.state = .cutting → structureEdit → a = .planner → w.editAllowed c p a = false)
        ∧ (c.state = .entering ∨ c.state = .cutting → structureEdit → a = .service →
          (w.editAllowed c p a = true ↔ late))
        ∧ (c.state = .tailIntake ∨ c.state = .deferred →
          (w.editAllowed c p a = true ↔ ¬structureEdit ∧ a = .service))
        ∧ (c.state = .tabCutting ∨ c.state = .closing ∨ c.state = .complete ∨ c.state = .failed ∨ c.state = .aborted →
          w.editAllowed c p a = false)

/-- GAP_CONFIG: a GAP_SINGLE outstanding gives BUSY, a station above 3 RANGE, a value out of its range RANGE. An accepted one
replaces the five values at once and starts a new window; the alarm clears under OFF and stays otherwise; the results stay
(R169). That a BUSY or RANGE reply carries no results is the model's reading (log entry 26). -/
def Obligations.GapConfigReplacesTheValues : Prop :=
  ∀ (s : State) (a : Authority) (f : MgmtFrame) (rest : List MgmtFrame), s.offers .gap 0 9 a f rest →
    let s0 : State := { s with mgmt := rest }
    let mode := (byteAt f.args 1).toNat
    let window := (word16At f.args 2).toNat
    let threshold := (word16At f.args 4).toNat
    let ratio := (byteAt f.args 6).toNat
    let gain := (word16At f.args 7).toNat
    let bad := 3 < (byteAt f.args 0).toNat ∨ 3 < mode ∨ window < 16 ∨ 256 < window ∨ window % 16 ≠ 0 ∨ 4095 < threshold
      ∨ ratio = 0 ∨ 100 < ratio ∨ 4095 < gain
    (s.gap.outstanding ≠ none → exec .gapConfig s = .next (s0.answer f .busy .empty).upstream)
      ∧ (s.gap.outstanding = none → bad → exec .gapConfig s = .next (s0.answer f .range .empty).upstream)
      ∧ ∀ st, s.gap.outstanding = none → ¬bad → stationOf (byteAt f.args 0) = some st →
        let cfg : GapConfig :=
          { window := window, threshold := threshold, ratio := ratio, gain := gain
            mode :=
              if mode = 0 then .off else if mode = 1 then .single else if mode = 2 then .continuous
              else .continuousHold }
        exec .gapConfig s =
          .next (({ s0 with
            gap := { s.gap with
              channels := s.gap.channels.modify st fun c =>
                { c with cfg := cfg, count := 0, shorts := 0, alarm := if mode = 0 then false else c.alarm } } } : State).answer
                  f .ok (.gapConfig cfg)).upstream

/-- GAP_SINGLE: one outstanding gives BUSY, a station above 3 RANGE, a station in OFF STATE. An accepted one makes the station
the pending single and reserves a place of the reply queue, and its reply is not built yet (R170, R181). That a BUSY, RANGE
or STATE reply carries no results is the model's reading (log entry 26). -/
def Obligations.GapSingleIsPendingAndReserved : Prop :=
  ∀ (s : State) (a : Authority) (f : MgmtFrame) (rest : List MgmtFrame), s.offers .gap 1 1 a f rest →
    let s0 : State := { s with mgmt := rest }
    (s.gap.outstanding ≠ none → exec .gapSingle s = .next (s0.answer f .busy .empty).upstream)
      ∧ (s.gap.outstanding = none → 3 < (byteAt f.args 0).toNat →
        exec .gapSingle s = .next (s0.answer f .range .empty).upstream)
      ∧ ∀ st, s.gap.outstanding = none → stationOf (byteAt f.args 0) = some st →
        ((s.gap.channels.get st).cfg.mode = .off →
            exec .gapSingle s = .next (s0.answer f .state .empty).upstream)
          ∧ ((s.gap.channels.get st).cfg.mode ≠ .off →
            let t : State :=
              { s0 with
                gap := { s.gap with pendingSingle := some st, outstanding := some { tn := f.tn, st := st } } }
            exec .gapSingle s = .next t.upstream ∧ t.reserved = s.reserved + 1)

/-- GAP_READ, GAP_CLEAR and GAP_RESET_EXTREMES: a GAP_SINGLE outstanding gives BUSY, a station above 3 RANGE. GAP_READ answers
with the station's configuration and results and the offset and changes nothing; GAP_CLEAR clears the alarm;
GAP_RESET_EXTREMES sets maximum 0 and minimum 100; nothing else changes (R171). That a BUSY or RANGE reply carries no
results is the model's reading (log entry 26). -/
def Obligations.GapReadClearAndResetExtremes : Prop :=
  ∀ (s : State) (a : Authority) (f : MgmtFrame) (rest : List MgmtFrame),
    let s0 : State := { s with mgmt := rest }
    let busy := s.gap.outstanding ≠ none
    let outside := s.gap.outstanding = none ∧ 3 < (byteAt f.args 0).toNat
    (s.offers .gap 2 1 a f rest →
        (busy → exec .gapRead s = .next (s0.answer f .busy .empty).upstream)
          ∧ (outside → exec .gapRead s = .next (s0.answer f .range .empty).upstream)
          ∧ ∀ st, ¬busy → stationOf (byteAt f.args 0) = some st →
            exec .gapRead s =
              .next (s0.answer f .ok (.gapChannel (s.gap.channels.get st) s.gap.offset)).upstream)
      ∧ (s.offers .gap 3 1 a f rest →
        (busy → exec .gapClear s = .next (s0.answer f .busy .empty).upstream)
          ∧ (outside → exec .gapClear s = .next (s0.answer f .range .empty).upstream)
          ∧ ∀ st, ¬busy → stationOf (byteAt f.args 0) = some st →
            exec .gapClear s =
              .next (({ s0 with
                gap := { s.gap with
                  channels := s.gap.channels.modify st fun c => { c with alarm := false } } } : State).answer f .ok
                    (.alarm false)).upstream)
      ∧ (s.offers .gap 4 1 a f rest →
        (busy → exec .gapResetExtremes s = .next (s0.answer f .busy .empty).upstream)
          ∧ (outside → exec .gapResetExtremes s = .next (s0.answer f .range .empty).upstream)
          ∧ ∀ st, ¬busy → stationOf (byteAt f.args 0) = some st →
            exec .gapResetExtremes s =
              .next (({ s0 with
                gap := { s.gap with
                  channels := s.gap.channels.modify st fun c => { c with maximum := 0, minimum := 100 } } } : State).answer
                    f .ok .empty).upstream)

/-- SENSE_CONFIG: a code that names no value gives RANGE; PLANNER authority that would change the BREAK line of a station that
is not IDLE gives LOCKED. An accepted one replaces the enable and active edge of that line and delivers no event: no
station changes (R174). That a RANGE or LOCKED reply carries no results is the model's reading (log entry 26). -/
def Obligations.SenseConfigReplacesEnableAndEdge : Prop :=
  ∀ (s : State) (a : Authority) (f : MgmtFrame) (rest : List MgmtFrame), s.offers .sense 0 4 a f rest →
    let s0 : State := { s with mgmt := rest }
    let bad := 3 < (byteAt f.args 0).toNat ∨ 2 < (byteAt f.args 1).toNat ∨ 1 < (byteAt f.args 2).toNat
      ∨ 1 < (byteAt f.args 3).toNat
    (bad → exec .senseConfig s = .next (s0.answer f .range .empty).upstream)
      ∧ ∀ st k, ¬bad → stationOf (byteAt f.args 0) = some st → lineOf (byteAt f.args 1) = some k →
        let l := s.line st k
        let v : SenseLine :=
          { enable := decide ((byteAt f.args 2).toNat = 1)
            edge := if (byteAt f.args 3).toNat = 0 then .rising else .falling
            level := l.level }
        let locked := a = .planner ∧ k = .breakLine ∧ (s.works.station st).state ≠ .idle
          ∧ (v.enable ≠ l.enable ∨ v.edge ≠ l.edge)
        (locked → exec .senseConfig s = .next (s0.answer f .locked .empty).upstream)
          ∧ (¬locked → ∃ lines : PerStation Lines,
            exec .senseConfig s = .next (({ s0 with lines := lines } : State).answer f .ok (.line v)).upstream
              ∧ (lines.get st).line k = v
              ∧ ∀ j m, j ≠ st ∨ m ≠ k → (lines.get j).line m = (s.lines.get j).line m)

/-- NOTICE_ENABLE replaces all 16 enables, makes a notice pending when it turns ON the enable of a flag that is set, and
answers with the enables and the flags; NOTICE_READ answers with flags, enables and whether a notice is pending, and
changes nothing; NOTICE_CLEAR clears the flags of its mask and leaves a pending notice pending (R185, R186). -/
def Obligations.NoticeRequestsActOnFlagsAndEnables : Prop :=
  ∀ (s : State) (a : Authority) (f : MgmtFrame) (rest : List MgmtFrame),
    let s0 : State := { s with mgmt := rest }
    let u := s.works.notices
    let mask := word16At f.args 0
    (s.offers .notice 0 2 a f rest → ∃ pending : Bool,
        exec .noticeEnable s =
            .next (({ s0 with
              works := { s.works with notices := { u with enables := mask, pending := pending } } } : State).answer f .ok
                (.noticeEnables mask u.flags)).upstream
          ∧ (pending = true ↔ u.pending = true
              ∨ ∃ i, u.flags.getLsbD i = true ∧ mask.getLsbD i = true ∧ u.enables.getLsbD i = false))
      ∧ (s.offers .notice 1 0 a f rest →
        exec .noticeRead s = .next (s0.answer f .ok (.notices u.flags u.enables u.pending)).upstream)
      ∧ (s.offers .notice 2 2 a f rest → ∃ flags : BitVec 16,
        exec .noticeClear s =
            .next (({ s0 with works := { s.works with notices := { u with flags := flags } } } : State).answer f .ok
              (.noticeFlags flags)).upstream
          ∧ ∀ i, flags.getLsbD i = (u.flags.getLsbD i && !mask.getLsbD i))

/-- Setting a flag that is set changes nothing; a flag that goes from clear to set makes a notice pending when its enable is
ON and none is pending (R184, R185). The flags of one mask are numbered in the order of R184's table. -/
def Obligations.FlagsAreSetOnceAndMakeNoticesPending : Prop :=
  (∀ (u : Notices) (n : Nat), n < 16 →
      (u.flags.getLsbD n = true → u.raise n = u)
        ∧ (u.flags.getLsbD n = false →
          (∀ i, (u.raise n).flags.getLsbD i = (u.flags.getLsbD i || decide (i = n)))
            ∧ (u.raise n).enables = u.enables
            ∧ (u.raise n).pending = (u.pending || u.enables.getLsbD n)))
    ∧ (∀ st : St, flagStationHeld st = st.val ∧ flagGapAlarm st = 4 + st.val)
    ∧ [flagContourFailed, flagThreadFailed, flagWireBreak, flagKerfWait, flagReportLoss, flagLinkError, flagStoreDone]
      = [8, 9, 10, 11, 12, 13, 14]

/-- STORE_READ: BUSY while a STORE_WRITE is outstanding, otherwise OK with the four gains and whether the store is valid.
STORE_WRITE: BUSY, PLANNER authority LOCKED, a gain above 4095 RANGE; an accepted one makes the store invalid and reserves
its reply's place; at its end the store holds the gains and is valid, the reply is built and STORE_DONE is set (R188,
R189). The live gains stay. That with no write in progress the end of one changes nothing but the lane is the model's choice
(log entry 31), that a BUSY, LOCKED or RANGE reply carries no results its reading (log entry 26). -/
def Obligations.StoreIsReadAndWritten : Prop :=
  ∀ (s : State) (a : Authority) (f : MgmtFrame) (rest : List MgmtFrame),
    let s0 : State := { s with mgmt := rest }
    let g := fun i => (word16At f.args (2 * i)).toNat
    let bad := 4095 < g 0 ∨ 4095 < g 1 ∨ 4095 < g 2 ∨ 4095 < g 3
    (s.offers .store 0 0 a f rest →
        (s.store.writing ≠ none → exec .storeRead s = .next (s0.answer f .busy .empty).upstream)
          ∧ (s.store.writing = none →
            exec .storeRead s = .next (s0.answer f .ok (.storeRead s.store.gains s.store.valid)).upstream))
      ∧ (s.offers .store 1 8 a f rest →
        (s.store.writing ≠ none → exec .storeWrite s = .next (s0.answer f .busy .empty).upstream)
          ∧ (s.store.writing = none → a = .planner → exec .storeWrite s = .next (s0.answer f .locked .empty).upstream)
          ∧ (s.store.writing = none → a = .service → bad →
            exec .storeWrite s = .next (s0.answer f .range .empty).upstream)
          ∧ (s.store.writing = none → a = .service → ¬bad →
            let t : State :=
              { s0 with
                store := { s.store with
                  valid := false, writing := some { tn := f.tn, gains := ⟨g 0, g 1, g 2, g 3⟩ } } }
            exec .storeWrite s = .next t.upstream ∧ t.reserved = s.reserved + 1))
      ∧ (s.store.writing = none → exec .storeWriteDone s = .next s.upstream)
      ∧ ∀ k, s.store.writing = some k →
        exec .storeWriteDone s =
          .next ({ s with
            store := { gains := k.gains, valid := true, writing := none }
            works := { s.works with notices := s.works.notices.raise flagStoreDone }
            replies := s.replies ++
              [{ tn := k.tn, unit := 8, request := 1, status := .ok, data := .storeWritten k.gains }] } : State).upstream

/-! ## The Gap Monitor and the sense lines -/

/-- The end of a conversion (R164): a reference conversion sets the offset; a SCAN of a station still in a continuous mode is
counted into its window, and a rise of its alarm sets GAP_ALARM and reaches the sequencer (R167), which adds SLUG while a
CUT move of a tail is outstanding (R140), and otherwise GAP with gap hold ON and the current contour in CUTTING (R147); a
SCAN of a station in another mode is discarded; a SINGLE builds the deferred reply with the corrected and raw codes and
the offset (R170). In every case the next conversion is then chosen (R163). -/
def Obligations.ConversionEndTakesTheResult : Prop :=
  (∀ (w : Works) (st : St),
      let x := w.station st
      let tail := ∃ o ∈ x.pair, ∃ m d off seg id k, o.body = .move m d off seg (.tailEntry id k)
      let main := x.tc.params.gapHold = true ∧ ∃ id c, x.current = some id ∧ w.contour? id = some c ∧ c.state = .cutting
      (tail → w.gapRise st = w.addHolds st { slug := true } none none)
        ∧ (¬tail → main → w.gapRise st = w.addHolds st { gap := true } none none)
        ∧ (¬tail → ¬main → w.gapRise st = w))
    ∧ ∀ (s : State) (raw : BitVec 12),
    let c := s.gap.inProgress
    let scanned : St → GapChannel := fun st => (s.gap.channels.get st).sample raw.toNat s.gap.offset
    let counted : St → GapMonitor := fun st =>
      { s.gap with channels := s.gap.channels.modify st fun _ => scanned st }
    (c.input = .reference →
        exec (.conversionEnd raw) s =
          .next ({ s with gap := ({ s.gap with offset := raw.toNat } : GapMonitor).choose } : State).upstream)
      ∧ ∀ st, c.input = .station st →
        let ch := s.gap.channels.get st
        let continuous := ch.cfg.mode = .continuous ∨ ch.cfg.mode = .continuousHold
        (c.single = false → ¬continuous →
            exec (.conversionEnd raw) s = .next ({ s with gap := s.gap.choose } : State).upstream)
          ∧ (c.single = false → continuous → ¬((scanned st).alarm = true ∧ ch.alarm = false) →
            exec (.conversionEnd raw) s = .next ({ s with gap := (counted st).choose } : State).upstream)
          ∧ (c.single = false → continuous → (scanned st).alarm = true ∧ ch.alarm = false →
            exec (.conversionEnd raw) s =
              .next ({ s with
                gap := (counted st).choose
                works := (s.works.raise (flagGapAlarm st)).gapRise st } : State).upstream)
          ∧ ∀ g, c.single = true → s.gap.outstanding = some g →
            exec (.conversionEnd raw) s =
              .next ({ s with
                gap := ({ s.gap with outstanding := none } : GapMonitor).choose
                replies := s.replies ++
                  [{ tn := g.tn, unit := 5, request := 1, status := .ok
                     data := .gapSingle st ((raw.toNat - s.gap.offset) * ch.cfg.gain / 4096) raw.toNat
                       s.gap.offset }] } : State).upstream

/-- The converter's choice (R163): a pending single is converted next and the scan position stays; otherwise the first input
from the scan position on, in the order of stations 0 to 3 and the reference, that is the reference or a station in a
continuous mode, and the scan position becomes the input after it. -/
def Obligations.ConverterChoosesSingleOrScan : Prop :=
  ∀ g : GapMonitor,
    let eligible : GapInput → Prop := fun i =>
      i = .reference ∨ ∃ st, i = .station st
        ∧ ((g.channels.get st).cfg.mode = .continuous ∨ (g.channels.get st).cfg.mode = .continuousHold)
    (∀ st, g.pendingSingle = some st →
        g.choose = { g with pendingSingle := none, inProgress := { input := .station st, single := true } })
      ∧ (∀ before i after, g.pendingSingle = none → scanOrder g.scan = before ++ i :: after →
        (∀ j ∈ before, ¬eligible j) → eligible i →
        g.choose = { g with inProgress := { input := i, single := false }, scan := i.after })
      ∧ scanOrder (.station 0) = [.station 0, .station 1, .station 2, .station 3, .reference]
      ∧ (∀ i : GapInput, ∃ rest, scanOrder i = i :: rest ∧ scanOrder i.after = rest ++ [i])

/-- A SCAN conversion in a window (R164, R166, R167): the corrected code is raw less offset, or 0, times gain, by 4096; it is
stored with the raw code and counted, as short when it is below the threshold. The window that reaches W gives the short
ratio, the extremes and the alarm, and the next window starts at 0. -/
def Obligations.WindowsGiveRatioExtremesAndAlarm : Prop :=
  ∀ (c : GapChannel) (raw offset : Nat),
    let code := (raw - offset) * c.cfg.gain / 4096
    let shorts := c.shorts + if code < c.cfg.threshold then 1 else 0
    let ratio := shorts * 100 / c.cfg.window
    (c.count + 1 < c.cfg.window →
        c.sample raw offset = { c with latest := some (raw, code), count := c.count + 1, shorts := shorts })
      ∧ (c.cfg.window ≤ c.count + 1 → ∃ alarm : Bool,
        c.sample raw offset =
            { c with
              latest := some (raw, code), count := 0, shorts := 0, lastRatio := some ratio, alarm := alarm
              maximum := if c.maximum < ratio then ratio else c.maximum
              minimum := if ratio < c.minimum then ratio else c.minimum }
          ∧ (c.cfg.ratio ≤ ratio → alarm = true)
          ∧ (ratio < c.cfg.ratio → c.cfg.mode = .continuous → alarm = false)
          ∧ (ratio < c.cfg.ratio → c.cfg.mode = .continuousHold → alarm = c.alarm))

/-- A sense line samples its pin's level whatever its enable, and delivers an active edge when the level goes from the
inactive to the active level with the enable ON: BREAK, CATCH or GUARD to the station's blocks (R173). The three edge
commands are the level going to the active one; a line already there, or disabled, delivers nothing (log entry 23). -/
def Obligations.LevelChangesDeliverActiveEdges : Prop :=
  ∀ (s : State) (st : St) (k : Line) (level : Level),
    let l := s.line st k
    let active : Level := match l.edge with
      | .rising => .high
      | .falling => .low
    let s1 : State := { s with lines := s.lines.modify st fun ls => ls.setLine k { l with level := level } }
    let edge := l.enable = true ∧ l.level ≠ active ∧ level = active
    (¬edge → exec (.senseLevelChange st k level) s = .next s1.upstream)
      ∧ (edge → k = .breakLine →
        exec (.senseLevelChange st k level) s = .next ({ s1 with works := s.works.breakEdge st } : State).upstream)
      ∧ (edge → k = .catchLine →
        exec (.senseLevelChange st k level) s = .next ({ s1 with works := s.works.catchEdge st } : State).upstream)
      ∧ (edge → k = .guardLine →
        exec (.senseLevelChange st k level) s = .next ({ s1 with works := s.works.guardEdge st } : State).upstream)
      ∧ (k = .breakLine → exec (.breakEdge st) s = exec (.senseLevelChange st k active) s)
      ∧ (k = .catchLine → exec (.catchEdge st) s = exec (.senseLevelChange st k active) s)
      ∧ (k = .guardLine → exec (.guardEdge st) s = exec (.senseLevelChange st k active) s)
      ∧ (s1.line st k = { l with level := level } ∧ ∀ j m, j ≠ st ∨ m ≠ k → s1.line j m = s.line j m)

/-- A BREAK active edge (R113): with the wire not THREADED it reaches the Threading Controller only (R101); with the wire
THREADED in a teardown the wire is BROKEN uncharged; in ACTIVE or HELD it is charged, and stopped when a CUT or KERF move
is outstanding (R115), or else settled at once, as `BreakSettles` lists: the break count rises, a BREAK report with the cut
boundary (R117) is built, WIRE_BREAK is set, a recovery record at step DUE takes the break's place, and beyond the break
limit the contour fails BREAK_LIMIT (R114, R116 to R120). That the wire place is kept from the charge to the settlement,
against R114's letter, is the model's reading (log entry 6). So is it that an edge in IDLE has no effect while an ABANDON waits
after a lockout or a FAULT, which R101's table does not name (log entry 34). -/
def Obligations.BreakEdgesActByWireState : Prop :=
  (∀ b : OpBody,
      (b.isCutOrKerf = true ↔ ∃ m d off seg work, b = .move m d off seg work ∧ (m = .cut ∨ m = .kerf))
        ∧ (b.isBrokenWork = true ↔ ∃ m d off seg work, b = .move m d off seg work ∧ (m = .kerf ∨ m = .travel)))
    ∧ (∀ (w : Works) (st : St) (id : Nat) (c : Contour),
      let last := match c.plan.tabOrdinal? with
        | some t => t - 1
        | none => c.cfg.segments
      let next := c.prog.cursor + 1
      let tail := c.kerf.filter fun e => decide (e.state = .tail ∨ e.state = .tailIssued ∨ e.state = .tailCut)
      ((w.station st).inPass id = false →
          (∀ e, next ≤ last → c.entry? next = some e → e.isMain = true → w.boundary st id c = (next, e.progress))
            ∧ (next ≤ last → c.entry? next = none → w.boundary st id c = (next, 0))
            ∧ ∀ e, last < next → c.entry? last = some e → w.boundary st id c = (last, e.seg.length))
        ∧ ∀ trigger p, (w.station st).pass = some { trigger := trigger, work := some p } → p.contour = id →
          (∀ before e after, (if p.approach = .forward then tail else tail.reverse) = before ++ e :: after →
              (∀ b ∈ before, b.state = .tailCut) → e.state ≠ .tailCut → w.boundary st id c = (e.ordinal, e.progress))
            ∧ ∀ before e, (if p.approach = .forward then tail else tail.reverse) = before ++ [e] →
              (∀ b ∈ before, b.state = .tailCut) → e.state = .tailCut →
              w.boundary st id c = (e.ordinal, e.seg.length))
    ∧ ∀ (s : State) (st : St),
    let l := s.line st .breakLine
    l.enable = true → l.isActive = false →
    let x := s.works.station st
    let s1 : State := s.setLine st .breakLine { l with level := l.edge.activeLevel }
    let quiet := exec (.breakEdge st) s = .next s1.upstream
    (x.wire ≠ .threaded → x.tc.episode = none → quiet)
      ∧ (∀ e, x.wire ≠ .threaded → x.tc.episode = some e →
        (x.tc.state = .idle ∨ x.tc.state = .abandoning ∨ (x.tc.state = .feeding ∧ e.broken = true) → quiet)
          ∧ (x.tc.state = .feeding → e.broken = false →
            exec (.breakEdge st) s =
              .next ({ s1 with
                works := s.works.upd st fun x =>
                  { x with
                    tc := { x.tc with
                      episode := some { e with broken := true, attempts := e.attempts + 1 } } } } : State).upstream)
          ∧ (x.tc.state = .locked →
            exec (.breakEdge st) s =
              .next ({ s1 with
                works := s.works.upd st fun x =>
                  { x with tc := { x.tc with episode := some { e with lockoutPending := true } } } } : State).upstream))
      ∧ (x.wire = .threaded → x.state = .aborting →
        exec (.breakEdge st) s =
          .next ({ s1 with
            works := s.works.upd st fun x => { x with wire := .broken, wirePlace := .nowhere } } : State).upstream)
      ∧ (x.wire = .threaded → x.state = .active ∨ x.state = .held → (∃ o ∈ x.pair, o.body.isCutOrKerf = true) →
        exec (.breakEdge st) s =
          .next ({ s1 with
            works := s.works.upd st fun x =>
              { x with wire := .broken, breakPending := true, stopAwaited := true } } : State).upstream)
      ∧ (x.wire = .threaded → x.state = .active ∨ x.state = .held → (∀ o ∈ x.pair, o.body.isCutOrKerf = false) →
        ∃ w1 : Works,
          exec (.breakEdge st) s = .next ({ s1 with works := w1.settle st } : State).upstream
            ∧ Works.BreakSettles (s.works.upd st fun x => { x with wire := .broken, breakPending := true }) st none none w1
            ∧ ∀ id c, x.current = some id → s.works.contour? id = some c → x.pass = none →
              c.prog.breaks < c.cfg.breakLimit →
              w1.time = s.works.time ∧ w1.pool = s.works.pool ∧ (∀ j ≠ st, w1.station j = s.works.station j)
              ∧ (∀ j ≠ id, w1.contour? j = s.works.contour? j)
              ∧ w1.contour? id = some { c with prog := { c.prog with breaks := c.prog.breaks + 1 } }
              ∧ w1.notices.flags.getLsbD flagWireBreak = true
              ∧ (w1.station st).wire = .broken ∧ (w1.station st).wirePlace = .nowhere ∧ (w1.station st).pair = x.pair
              ∧ (w1.station st).returned = x.returned.filter (fun r => !r.body.isBrokenWork)
              ∧ (w1.station st).recovery =
                some { contour := id, pass := .main, place := x.wirePlace, path := none, step := .due, next := none }
              ∧ (x.reports.length < 32 → (w1.station st).reports =
                x.reports ++
                  [{ stamp := s.works.time
                     body := .wireBreak id .main x.wirePlace c.mainBoundary c.mainBoundary (c.prog.breaks + 1)
                       false }]))

/-- A GUARD active edge adds GUARD (R147). A CATCH active edge satisfies an armed catch wait, and the closing completes when
its CUT has come and no failure is pending (R73, R74); while one is pending the wait is satisfied and nothing completes (R154).
With no wait armed it adds STRAY_SLUG when the current contour is in CUTTING under a TAB plan or in TAB_CUTTING (R141, R148);
otherwise, and on an IDLE or ABORTING station, it is disregarded. -/
def Obligations.CatchAndGuardEdgesActOnTheStation : Prop :=
  ∀ (s : State) (st : St),
    let x := s.works.station st
    let g := s.line st .guardLine
    let l := s.line st .catchLine
    (g.enable = true → g.isActive = false →
        exec (.guardEdge st) s =
          .next ({ s.setLine st .guardLine { g with level := g.edge.activeLevel } with
            works := s.works.addHolds st { guard := true } none none } : State).upstream)
      ∧ (l.enable = true → l.isActive = false →
        let s1 : State := s.setLine st .catchLine { l with level := l.edge.activeLevel }
        let held := ∃ id c, x.current = some id ∧ s.works.contour? id = some c
          ∧ ((c.state = .cutting ∧ c.plan.tabOrdinal? ≠ none) ∨ c.state = .tabCutting)
        let w1 := s.works.upd st fun x =>
          { x with catchWait := none, closing := x.closing.map fun k => { k with satisfied := true } }
        (x.state = .idle ∨ x.state = .aborting ∨ (x.catchWait = none ∧ ¬held) →
            exec (.catchEdge st) s = .next s1.upstream)
          ∧ (x.state = .active ∨ x.state = .held → x.catchWait = none → held →
            exec (.catchEdge st) s =
              .next ({ s1 with works := s.works.addHolds st { straySlug := true } none none } : State).upstream)
          ∧ (∀ e, x.state = .active ∨ x.state = .held → x.catchWait = some e → x.closing = none →
            exec (.catchEdge st) s = .next ({ s1 with works := w1.settle st } : State).upstream)
          ∧ ∀ e k, x.state = .active ∨ x.state = .held → x.catchWait = some e → x.closing = some k →
            (k.cutReceived = false
                  ∨ (∀ id c, x.current = some id → s.works.contour? id = some c →
                    c.state ≠ .closing ∨ c.prog.pendingFailure ≠ none) →
                exec (.catchEdge st) s = .next ({ s1 with works := w1.settle st } : State).upstream)
              ∧ ∀ id c, k.cutReceived = true → x.current = some id → s.works.contour? id = some c →
                c.state = .closing → c.prog.pendingFailure = none →
                exec (.catchEdge st) s =
                  .next ({ s1 with works := (w1.complete st id).settle st } : State).upstream)

/-- A contour's completion (R74): state COMPLETE with outcome NONE and its counts kept, its reservation and kerf record
released, no current contour, closing record or catch wait left, contours completed one more, activity WAITING or TAB_PASS, and
a CONTOUR_END report; in a tab pass the per-contour fields of the pass record are emptied and its trigger stays (R137). That a recovery record goes with the contour is log entry 18. -/
def Obligations.CompletionReleasesTheContour : Prop :=
  ∀ (w : Works) (st : St) (id : Nat) (c : Contour), w.contour? id = some c → c.cfg.station = st →
    (∀ e ∈ c.kerf, e.handle = none) → (∀ g r, w.pool.waiting.get g = some r → r.contour ≠ id) →
    let x := w.station st
    let y := (w.complete st id).station st
    (w.complete st id).contour? id = some
        { c with
          state := .complete
          kerf := if c.prog.reservation = 0 then c.kerf else []
          prog := { c.prog with outcome := some .success, reservation := 0 } }
      ∧ y.current = none ∧ y.closing = none ∧ y.recovery = none ∧ y.catchWait = none
      ∧ y.completed = (if x.completed < 65535 then x.completed + 1 else 65535)
      ∧ y.activity = (if x.pass.isSome then .tabPass else .waiting)
      ∧ y.pass = x.pass.map (fun r => { r with work := none }) ∧ y.deferred = x.deferred
      ∧ y.wire = x.wire ∧ y.pair = x.pair ∧ y.adm = x.adm ∧ y.holds = x.holds ∧ y.state = x.state
      ∧ (x.reports.length < 32 → y.reports =
        x.reports ++
          [{ stamp := w.time
             body := .contourEnd id .complete .success c.prog.arrived c.prog.cursor c.prog.breaks c.prog.offset }])
      ∧ (∀ j ≠ st, ∃ act, (w.complete st id).station j = { w.station j with activity := act })
      ∧ ((∀ g, w.pool.waiting.get g = none) →
        (w.complete st id).pool = { w.pool with free := w.pool.free + c.prog.reservation })

/-- The catch wait expires once it has fallen due: it is disarmed and NO_CATCH is added (R73). The command changes nothing
before that, or with no wait armed (log entry 11). -/
def Obligations.CatchWaitExpiryAddsNoCatch : Prop :=
  ∀ (s : State) (st : St),
    ((s.works.station st).catchWait = none → exec (.catchWaitExpiry st) s = .next s.upstream)
      ∧ ∀ e, (s.works.station st).catchWait = some e →
        let left := (e - s.works.time).toNat
        (left = 0 ∨ 25500000 < left →
            exec (.catchWaitExpiry st) s =
              .next ({ s with
                works := (s.works.upd st fun x => { x with catchWait := none }).addHolds st { noCatch := true } none
                  none } : State).upstream)
          ∧ (0 < left → left ≤ 25500000 → exec (.catchWaitExpiry st) s = .next s.upstream)

/-! ## The drive's reports -/

/-- The DONE of a main-pass CUT move (R68): the operation leaves the pair, its entry is CUT and gives up its mark, which is
reported DONE and freed, the cut cursor rises by 1 and the wire place is IN_CUT; at the last ordinal the contour is CLOSING
with its closing record set up from the plan and the catch wait armed for CATCH (R72, R73). That of a tail move makes its
entry TAIL_CUT, and the last begins the closing (R136, R137); a KERF move sets the wire place; the travels take their work a
step on (R66, R124, R133); a directive's reports its mark and ends its activity (R75, R76). The sequencer then goes on, and
the underrun rule is applied when the pair is left empty (R71). The model's readings: no catch wait is armed in a teardown (log
entry 15), and a main pass counts as ended once its contour is closing (log entry 13). -/
def Obligations.DoneCompletesTheOldestMove : Prop :=
  (∀ p : Plan,
      (p.mode = .plain → p.confirmRequired = .plain) ∧ (p.mode = .catcher → p.confirmRequired = .catcher)
        ∧ (p.mode = .pause → p.confirmRequired = .pause) ∧ ∀ t ap cf, p.mode = .tab t ap cf → p.confirmRequired = cf)
    ∧ (∀ (w : Works) (st : St),
      let x := w.station st
      let waits : Nat → Contour → Program → Prop := fun id c p =>
        x.state = .active ∧ x.pair = [] ∧ x.wire = .threaded ∧ x.current = some id ∧ w.contour? id = some c
          ∧ c.state = .cutting ∧ x.activity = .cutting ∧ (∀ e ∈ c.kerf, e.state ≠ .pending)
          ∧ c.plan.tabOrdinal? ≠ some (c.h + 1) ∧ (∀ e, x.adm.queue.head? = some e → e.contour ≠ id)
          ∧ x.adm.program = some p
      (∀ id c p, waits id c p → x.underrunReported = false →
          w.underrun st = (w.report st (.underrun id (c.h + 1) p.consumed)).upd st fun x =>
            { x with underrunReported := true })
        ∧ ((∀ id c p, ¬waits id c p) ∨ x.underrunReported = true → w.underrun st = w))
    ∧ ∀ (s : State) (st : St) (n : Byte),
    let x := s.works.station st
    let w0 := s.works.upd st fun x => { x with linkUp := true }
    (∀ d off seg id k rest c e,
        x.pair = { issue := n, body := .move .cut d off seg (.mainEntry id k) } :: rest →
        s.works.contour? id = some c → c.entry? k = some e → x.pass = none → x.wire = .threaded →
        ∃ (w1 : Works) (c1 : Contour),
          exec (.done st n) s =
              .next ({ s with
                works := if rest = [] then (w1.settle st).underrun st else w1.settle st } : State).upstream
            ∧ w1.time = s.works.time ∧ w1.pool = s.works.pool
            ∧ (∀ j ≠ st, w1.station j = s.works.station j) ∧ (∀ j ≠ id, w1.contour? j = s.works.contour? j)
            ∧ w1.contour? id = some c1 ∧ c1.prog = { c.prog with cursor := c.prog.cursor + 1 }
            ∧ c1.entry? k = some { e with state := .cut, handle := none }
            ∧ c1.state = (if k = c.cfg.segments then .closing else c.state)
            ∧ (w1.station st).pair = rest ∧ (w1.station st).wirePlace = .inCut ∧ (w1.station st).wire = .threaded
            ∧ (∀ h, e.handle = some h → (w1.station st).adm.handles = x.adm.handles &&& ~~~ bit8 h)
            ∧ (e.handle = none → (w1.station st).adm = x.adm ∧ (w1.station st).reports = x.reports)
            ∧ (∀ h, e.handle = some h → x.reports.length < 32 → (w1.station st).reports =
              x.reports ++ [{ stamp := s.works.time, body := .mark h e.seq id .done }])
            ∧ (k ≠ c.cfg.segments → (w1.station st).closing = x.closing ∧ (w1.station st).activity = x.activity
              ∧ (w1.station st).catchWait = x.catchWait)
            ∧ (k = c.cfg.segments → (w1.station st).activity = .closing
              ∧ (w1.station st).closing = some
                { cutReceived := false, required := c.plan.confirmRequired
                  satisfied := decide (c.plan.confirmRequired = .plain) }
              ∧ (w1.station st).catchWait =
                if c.plan.confirmRequired = .catcher ∧ x.state ≠ .aborting then
                  some (s.works.time + BitVec.ofNat 32 (c.plan.timeout * 100000))
                else none))
      ∧ (∀ ms mark, x.pair = [{ issue := n, body := .dwell ms mark }] → ∃ w1 : Works,
        exec (.done st n) s = .next ({ s with works := (w1.settle st).underrun st } : State).upstream
          ∧ w1 = (w0.upd st fun x => { x with pair := [] }).directiveDone st mark
          ∧ (w1.station st).activity = .waiting ∧ (w1.station st).pair = [] ∧ w1.contours = s.works.contours)
      ∧ ∀ body rest, x.pair = { issue := n, body := body } :: rest →
        let place : MoveMode → WirePlace := fun m =>
          if x.wire = .threaded ∨ x.breakPending = true then
            match m with
            | .cut => .inCut
            | .kerf => .inTraverse
            | .travel => x.wirePlace
          else x.wirePlace
        let bare : MoveMode → Works := fun m => w0.upd st fun x => { x with pair := rest, wirePlace := place m }
        let after : Works → Prop := fun w1 =>
          exec (.done st n) s = .next ({ s with
            works := if rest = [] then (w1.settle st).underrun st else w1.settle st } : State).upstream
        (∀ m d off seg id k c e, body = .move m d off seg (.mainEntry id k) → s.works.contour? id = some c →
            c.entry? k = some e → ∃ w1, after w1 ∧ (bare m).EntryCounts st id k c e false w1)
          ∧ (∀ m d off seg id k c e, body = .move m d off seg (.tailEntry id k) → s.works.contour? id = some c →
            c.entry? k = some e → ∃ w1, after w1 ∧ (bare m).EntryCounts st id k c e true w1)
          ∧ (∀ m d off seg id k, body = .move m d off seg (.traverse id k) → after (bare m))
          ∧ (∀ m d off seg, body = .move m d off seg .entryTravel →
            after ((bare m).upd st fun x => { x with activity := .threading }))
          ∧ (∀ m d off seg, body = .move m d off seg .passTravel →
            after ((bare m).upd st fun x =>
              { x with pass := x.pass.map fun r => { r with work := r.work.map fun p => { p with step := .threading } } }))
          ∧ (∀ m d off seg, body = .move m d off seg .recoveryTravel →
            after ((bare m).upd st fun x => { x with recovery := x.recovery.map fun r => { r with step := .startHole } }))
          ∧ ∀ mark, (∃ ms, body = .dwell ms mark) ∨ (∃ d off seg, body = .move .travel d off seg (.directive mark)) →
            after (((bare .travel).markReport? st mark .done).upd st fun x =>
              { x with
                directiveMarks := x.directiveMarks.filter fun m => decide (mark ≠ some m)
                activity := if rest = [] then .waiting else x.activity })

/-- Reports that cannot be trusted, and a port that goes DOWN, are drive loss (R59, R63, R193): a DONE that does not name the
oldest MOVE or DWELL, a STOPPED with an issue number that is not the oldest's or with no STOP awaited, a FAULT that does
not name the oldest, a message that fails a test, a link DOWN, and every issue on a port that is DOWN: where a station with
its link UP would issue an operation (of the entry, a directive, a DWELL, an episode, a recovery, a pass, a returned one, a
WIRE_CUT), one with its link DOWN has a drive loss. A message fails exactly when its length byte differs from the bytes
received, its check does not match, its code is not 8 to 15, or its length does not fit its code (R193); one that passes is
read as the report of its code in 12.5's layout (the presence byte of STOPPED's issue number: log entry 24). In drive loss
every operation leaves the pair unanswered, no STOP is awaited, the wire is UNKNOWN; a charged break whose STOP was awaited
is settled with no answer to take (R116), its place the one the wire kept (log entry 6; in a teardown it fails no contour,
log entry 15); an ACTIVE or HELD station is torn down with cause DRIVE_LOST, an ABORTING one goes on with its cause, an IDLE
one does nothing else. -/
def Obligations.UntrustedReportsAreDriveLoss : Prop :=
  (∀ (w : Works) (st : St),
      let x := w.station st
      x.linkUp = false →
        (∀ w1, (w.upd st fun x => { x with linkUp := true }).act st = some w1 →
            (w1.station st).nextIssue ≠ x.nextIssue → ∃ w', w.act st = some w' ∧ w.DriveLost st w')
          ∧ (∀ r rest, x.state = .active → x.stopAwaited = false → x.returned = r :: rest → x.pair.length < 2 →
            (∀ o ∈ x.pair, o.body.isTool = false) → (r.body.isTool = true → x.pair = []) →
            (∀ id c, x.current = some id → w.contour? id = some c → c.state ≠ .tailIntake) →
            ∃ w', w.act st = some w' ∧ w.DriveLost st w')
          ∧ (x.state = .aborting → x.stopAwaited = false → x.pair = [] → x.wire = .threaded ∨ x.wire = .broken →
            ∃ w', w.act st = some w' ∧ w.DriveLost st w'))
    ∧ (∀ bytes : List Byte,
      let code := (byteAt bytes 1).toNat
      let f : Nat → Byte := fun i => byteAt bytes (i + 2)
      (receiveReport bytes = none ↔
          ((byteAt bytes 0).toNat + 3 ≠ bytes.length
            ∨ bytes.drop (bytes.length - 2) ≠ checkBytes (frameCheck (bytes.take (bytes.length - 2)))
            ∨ code < 8 ∨ 15 < code
            ∨ bytes.length ≠ 4 + if code = 8 ∨ code = 11 then 1 else if code = 9 ∨ code = 10 then 5 else 0))
        ∧ ∀ r, receiveReport bytes = some r →
          r = if code = 8 then .done (f 0)
            else if code = 9 then .stopped (if f 0 = 0 then none else some (f 1)) (f 2 ++ f 3 ++ f 4)
            else if code = 10 then .fault (f 0) (f 1 ++ f 2 ++ f 3) (f 4)
            else if code = 11 then .probe (f 0)
            else if code = 12 then .probeEnd else if code = 13 then .threaded
            else if code = 14 then .abandoned else .cut)
    ∧ ∀ (s : State) (st : St),
    let x := s.works.station st
    let lost : Instr → Bool → Prop := fun c up =>
      ∃ w1 : Works,
        exec c s = .next
            ({ s with works := w1.settle st } : State).upstream
          ∧ w1.time = s.works.time ∧ (w1.station st).linkUp = up
          ∧ (w1.station st).pair = [] ∧ (w1.station st).stopAwaited = false ∧ (w1.station st).wire = .unknown
          ∧ (w1.station st).wirePlace = .nowhere
          ∧ (x.state = .active ∨ x.state = .held →
            (w1.station st).state = .aborting ∧ (w1.station st).teardown = some .driveLost
              ∧ (w1.station st).holds = Holds.none ∧ (w1.station st).catchWait = none)
          ∧ (x.state = .aborting → (w1.station st).state = .aborting ∧ (w1.station st).teardown = x.teardown)
          ∧ (x.state = .idle → x.breakPending = false →
            w1 = s.works.upd st fun x =>
              { x with
                linkUp := up, pair := [], stopAwaited := false, wire := .unknown, wirePlace := .nowhere
                tc := { x.tc with state := .idle } })
          ∧ (s.works.upd st fun x => { x with linkUp := up }).DriveLost st w1
    (∀ n, (∀ o rest, x.pair = o :: rest → o.issue ≠ n ∨ o.body.answersDone = false) → lost (.done st n) true)
      ∧ (∀ n p, x.stopAwaited = false ∨ (∀ o rest, x.pair = o :: rest → o.issue ≠ n) →
        lost (.stopped st (some n) p) true)
      ∧ (∀ n p k, (∀ o rest, x.pair = o :: rest → o.issue ≠ n) → lost (.fault st n p k) true)
      ∧ lost (.portLinkDown st none) false
      ∧ ∀ bytes, receiveReport bytes = none → lost (.portLinkDown st (some bytes)) false

/-- The answer to a STOP, and a FAULT (R60 to R62, R84). A STOPPED that names the oldest operation, a STOPPED that names none
while a STOP is awaited, and a FAULT that names the oldest end every operation of the pair, the oldest at the progress
given and the next unstarted, each by its kind as `OpEnds` lists: a main-pass or tail entry keeps the greater progress, never
past its length (log entry 14), and goes back to PENDING or TAIL or counts as cut; a KERF traverse, TRAVEL or DWELL joins the
returned operations; a THREAD, CONFIRM, ABANDON or WIRE_CUT is dealt with as R62, R105 and R106 give (in a teardown: log
entries 8 and 15). A main pass whose last entry so becomes CUT counts as ended at the closing (log entry 13). A break charged
before is settled then (R115, R116), its place the one kept since (log entry 6). A FAULT also adds DRIVE_FAULT with its code,
unless the station is ABORTING or IDLE; that BREAK is built before that HELD, and that one HELD carries DRIVE_FAULT and the
CONTOUR_FAILED of a break limit, is log entry 16. A STOPPED naming none while no STOP is awaited is disregarded. Returned
operations are issued again, oldest first, when the station is ACTIVE and the pair has room, in the form R61's table gives. -/
def Obligations.StoppedAndFaultReturnTheWork : Prop :=
  (∀ (s : State) (st : St) (n : Byte) (p : BitVec 24) (code : Byte),
      let x := s.works.station st
      let w0 := s.works.upd st fun x => { x with linkUp := true }
      let ended : WirePlace → Works := fun place => w0.upd st fun x =>
        { x with pair := [], stopAwaited := false, wirePlace := place }
      let settled : Works → Option (Nat × Nat) → Option Byte → Works → Prop := fun w1 position code w2 =>
        (x.breakPending = false → w2 = w1) ∧ (x.breakPending = true → w1.BreakSettles st position code w2)
      (∀ body rest, x.pair = { issue := n, body := body } :: rest →
          let place : WirePlace :=
            if x.wire = .threaded ∨ x.breakPending = true then
              match body with
              | .move .cut _ _ _ _ => .inCut
              | .move .kerf _ _ _ _ => .inTraverse
              | _ => x.wirePlace
            else x.wirePlace
          let position : Option (Nat × Nat) := match body with
            | .move _ _ _ _ (.mainEntry _ k) | .move _ _ _ _ (.tailEntry _ k) | .move _ _ _ _ (.traverse _ k) =>
              some (k, p.toNat)
            | _ => none
          (x.stopAwaited = true → ∃ w1 w2 : Works,
              exec (.stopped st (some n) p) s = .next ({ s with works := w2.settle st } : State).upstream
                ∧ Works.OpsEnd st x.pair p.toNat (ended place) w1 ∧ settled w1 position none w2)
            ∧ ∃ w1 w2 : Works,
              exec (.fault st n p code) s =
                  .next ({ s with
                    works := (w2.addHolds st { driveFault := true } (some code) none).settle st } : State).upstream
                ∧ Works.OpsEnd st x.pair p.toNat (ended place) w1 ∧ settled w1 position (some code) w2)
        ∧ (x.stopAwaited = true → ∃ w1 w2 : Works,
          exec (.stopped st none p) s = .next ({ s with works := w2.settle st } : State).upstream
            ∧ Works.OpsEnd st x.pair 0 (ended x.wirePlace) w1 ∧ settled w1 none none w2)
        ∧ (x.stopAwaited = false →
          exec (.stopped st none p) s = .next ({ s with works := w0 } : State).upstream))
    ∧ ∀ (w : Works) (st : St) (r : Returned) (rest : List Returned),
      let x := w.station st
      let room := x.pair.length < 2 ∧ (∀ o ∈ x.pair, o.body.isTool = false) ∧ (r.body.isTool = true → x.pair = [])
      let again : OpBody := match r.body with
        | .move .kerf d _ seg work => .move .kerf d r.progress seg work
        | .move .travel d _ seg work => .move .travel d 0 seg work
        | b => b
      x.state = .active → x.stopAwaited = false → x.returned = r :: rest → x.linkUp = true →
      (∀ id c, x.current = some id → w.contour? id = some c → c.state ≠ .tailIntake) →
        (room → w.act st = some (w.upd st fun x =>
            { x with
              returned := rest
              tc := if r.body = .abandon then { x.tc with state := .abandoning } else x.tc
              pair := x.pair ++ [{ issue := x.nextIssue, body := again }], nextIssue := x.nextIssue + 1
              underrunReported := false }))
          ∧ (¬room → w.act st = none)

/-- A CUT report (R59): with a WIRE_CUT the oldest operation, it leaves the pair and the wire is UNTHREADED. After the wire cut
that ends a main pass the contour is in TAIL_INTAKE unless a failure is pending (R69); after a closing one CUT received is
yes, PAUSE adds PART_REMOVAL, and a satisfied closing completes (R72, R74); after a recovery one the path is IN_KERF when
the permit is YES and the place IN_CUT, and START_HOLE otherwise (R122). With no WIRE_CUT outstanding it is disregarded.
A closing whose CUT has not come issues its WIRE_CUT when the station is ACTIVE and the pair is empty (R72, R137), and so does
the failure of a contour that left a wire in, before anything else is looked at (R153). -/
def Obligations.CutReportsEndTheWireCut : Prop :=
  (∀ (w : Works) (st : St),
      let x := w.station st
      let issued : OpBody → Works → Works := fun body w => w.upd st fun x =>
        { x with
          pair := x.pair ++ [{ issue := x.nextIssue, body := body }], nextIssue := x.nextIssue + 1
          underrunReported := false }
      x.state = .active → x.stopAwaited = false → x.returned = [] → x.linkUp = true →
        (∀ id c k, x.current = some id → w.contour? id = some c → c.state = .closing → c.prog.pendingFailure = none →
            x.recovery = none → x.tc.episode = none → x.closing = some k →
            (k.cutReceived = false → x.pair = [] → w.act st = some (issued (.wireCut .closing) w))
              ∧ (k.cutReceived = true ∨ x.pair ≠ [] → w.act st = none))
          ∧ (x.current = none → x.failureCutDue = true →
            let done := w.upd st fun x => { x with failureCutDue := false }
            (x.pair = [] → w.act st = some (if x.wire = .unthreaded then done else issued (.wireCut .failure) done))
              ∧ (x.pair ≠ [] → w.act st = none)))
    ∧ ∀ (s : State) (st : St),
    let x := s.works.station st
    let w0 := s.works.upd st fun x => { x with linkUp := true }
    ((∀ o rest, x.pair = o :: rest → o.body.isWireCut = false) →
        exec (.cut st) s = .next ({ s with works := w0 } : State).upstream)
      ∧ ∀ n purpose rest, x.pair = { issue := n, body := .wireCut purpose } :: rest →
        let bare := w0.upd st fun x => { x with pair := rest, wire := .unthreaded, wirePlace := .nowhere }
        ∃ w1 : Works,
          exec (.cut st) s = .next ({ s with works := w1.settle st } : State).upstream
            ∧ w1.time = s.works.time ∧ (w1.station st).pair = rest ∧ (w1.station st).wire = .unthreaded
            ∧ (purpose = .entry ∨ purpose = .directive ∨ purpose = .failure ∨ purpose = .pass ∨ purpose = .teardown →
              w1 = bare)
            ∧ ∀ id c, x.current = some id → s.works.contour? id = some c →
              (purpose = .mainEnd → c.state = .cutting → c.mainEnded = true →
                  (c.prog.pendingFailure = none → w1.contour? id = some { c with state := .tailIntake }
                    ∧ (w1.station st).activity = .tailIntake)
                    ∧ (c.prog.pendingFailure ≠ none → w1 = bare))
                ∧ (∀ r, purpose = .recovery → x.recovery = some r → r.step = .wireCut →
                  (w1.station st).recovery = some
                    (if c.cfg.inKerf = true ∧ r.place = .inCut then { r with path := some .inKerf, step := .inKerf }
                     else { r with path := some .startHole, step := .travel }))
                ∧ ∀ k, purpose = .closing → x.closing = some k →
                  (c.plan.confirmRequired ≠ .pause →
                      c.state ≠ .closing ∨ c.prog.pendingFailure ≠ none ∨ k.satisfied = false →
                      w1 = bare.upd st fun x => { x with closing := some { k with cutReceived := true } })
                    ∧ (c.plan.confirmRequired ≠ .pause → c.state = .closing → c.prog.pendingFailure = none →
                      k.satisfied = true →
                      w1 = (bare.upd st fun x =>
                        { x with closing := some { k with cutReceived := true } }).complete st id)
                    ∧ (c.plan.confirmRequired = .pause → k.satisfied = false →
                      w1 = (bare.upd st fun x =>
                        { x with closing := some { k with cutReceived := true } }).addHolds st
                          { partRemoval := true } none none)

/-- PROBE and PROBE_END (R98, R99): in FEEDING with no STOP awaited and the attempt not broken, a SEATED raises the lock run
and a SHORT or LONG sets it to 0 and is the last miss; the N-th consecutive SEATED ends the THREAD, and CONFIRM is issued.
A PROBE_END ends the THREAD, counts the attempt as a miss, or as broken without counting it again, and ABANDON is issued.
Otherwise the report is disregarded, as is a result byte that names none (R104; log entry 7). -/
def Obligations.ProbesLeadToConfirmOrAbandon : Prop :=
  ∀ (s : State) (st : St),
    let x := s.works.station st
    let w0 := s.works.upd st fun x => { x with linkUp := true }
    let after : Works → State := fun w1 => ({ s with works := w1.settle st } : State).upstream
    let episode : Episode → Works := fun e' => w0.upd st fun x => { x with tc := { x.tc with episode := some e' } }
    let issue : Episode → ThreaderState → OpBody → Works := fun e' state body =>
      w0.upd st fun x =>
        { x with
          tc := { x.tc with episode := some e', state := state }
          pair := [{ issue := x.nextIssue, body := body }], nextIssue := x.nextIssue + 1, underrunReported := false }
    (∀ b, x.tc.episode = none ∨ x.tc.state ≠ .feeding ∨ x.stopAwaited = true ∨ 2 < b.toNat →
        exec (.probe st b) s = .next (after w0))
      ∧ (x.tc.episode = none ∨ x.tc.state ≠ .feeding ∨ x.stopAwaited = true →
        exec (.probeEnd st) s = .next (after w0))
      ∧ ∀ e, x.tc.episode = some e → x.tc.state = .feeding → x.stopAwaited = false →
        (e.broken = true → ∀ b, exec (.probe st b) s = .next (after w0))
          ∧ (e.broken = false →
            exec (.probe st 1) s = .next (after (episode { e with lockRun := 0, lastMiss := some .short }))
              ∧ exec (.probe st 2) s = .next (after (episode { e with lockRun := 0, lastMiss := some .long }))
              ∧ (e.lockRun + 1 ≠ e.lockCount →
                exec (.probe st 0) s = .next (after (episode { e with lockRun := e.lockRun + 1 })))
              ∧ (e.lockRun + 1 = e.lockCount →
                exec (.probe st 0) s = .next (after (issue { e with lockRun := e.lockRun + 1 } .locked .confirm))))
          ∧ (e.broken = false →
            exec (.probeEnd st) s =
              .next (after (issue { e with attempts := e.attempts + 1, reason := some .miss } .abandoning .abandon)))
          ∧ (e.broken = true →
            exec (.probeEnd st) s = .next (after (issue { e with reason := some .broken } .abandoning .abandon)))

/-- THREADED (R102, R103): in LOCKED with no lockout pending the episode ends in success, with the attempt counted, THREAD_OK,
a THREAD report, the wire THREADED at the place of its kind and the contour's thread offset the episode's. What follows is
`SuccessFollows`: after an entry the contour is in CUTTING (R66); a recovery ends after IN_KERF and goes to TRAVERSE after
START_HOLE, or ends with nothing to traverse (R123 to R125); a pass contour goes to APPROACH (R134). With lockout pending the
attempt is counted and an ABANDON with reason LOCKOUT is due. On an ABORTING station the episode ends ABORTED with the wire
THREADED, or BROKEN with lockout pending, no contour moved and no offset recorded (R108); that its attempt is counted is log
entry 8. That approach next stands past the traverse part after a recovery in a pass is log entry 32. In any other state
THREADED is disregarded (R104). An episode begins with the staged parameters applied, the limits of its kind
copied, every counter 0 and both summary flags clear (R96); with nothing outstanding an ACTIVE station issues its THREAD at
the offset, or its ABANDON when the record holds a reason (R97, R102, R105). -/
def Obligations.ThreadedSucceedsOrTakesLockout : Prop :=
  (∀ (w : Works) (st : St) (kind : EpisodeKind) (id : Nat) (c : Contour),
      let t := (w.station st).tc
      let p := t.staged.getD t.params
      let limit := if kind = .startHole then c.cfg.attemptLimit else p.inKerfLimit
      limit ≠ 0 →
      w.startEpisode st kind id c = w.upd st fun x =>
        { x with
          tc :=
            { state := x.tc.state, ok := false, fail := false, params := p, staged := none
              episode := some
                { kind := kind, contour := id, attemptLimit := limit, lockCount := p.lockCount
                  offsetBound := p.offsetBound, relock := p.relock, attempts := 0, offset := 0, lockRun := 0
                  lastMiss := none, broken := false, lockoutPending := false, reason := none
                  clearanceDue := false } } })
    ∧ (∀ (w : Works) (st : St) (id : Nat) (c : Contour) (e : Episode),
      let x := w.station st
      let issued : OpBody → ThreaderState → Works := fun body state => w.upd st fun x =>
        { x with
          tc := { x.tc with state := state }
          pair := [{ issue := x.nextIssue, body := body }], nextIssue := x.nextIssue + 1, underrunReported := false }
      x.state = .active → x.stopAwaited = false → x.returned = [] → x.linkUp = true → x.current = some id →
      w.contour? id = some c → c.prog.pendingFailure = none → c.state ≠ .tailIntake → x.tc.episode = some e →
      (∀ r, x.recovery = some r → r.step = .inKerf ∨ r.step = .startHole) →
        (x.pair = [] → x.tc.state = .idle →
            (e.reason = none → w.act st = some (issued (.thread e.offset) .feeding))
              ∧ (e.reason ≠ none → w.act st = some (issued .abandon .abandoning)))
          ∧ (x.pair ≠ [] ∨ x.tc.state ≠ .idle → w.act st = none))
    ∧ ∀ (s : State) (st : St),
    let x := s.works.station st
    let w0 := s.works.upd st fun x => { x with linkUp := true }
    let ended : Bool → Works := fun ok => w0.upd st fun x =>
      { x with pair := [], tc := { x.tc with state := .idle, ok := ok, fail := !ok, episode := none } }
    (x.tc.episode = none ∨ x.tc.state ≠ .locked →
        exec (.threaded st) s = .next ({ s with works := w0.settle st } : State).upstream)
      ∧ (∀ e, x.tc.episode = some e → x.tc.state = .locked → x.state = .aborting →
        exec (.threaded st) s =
          .next ({ s with
            works := (((ended false).report st
                (.thread e.kind e.contour .aborted (e.attempts + 1) e.offset)).upd st fun x =>
              { x with wire := if e.lockoutPending then .broken else .threaded }).settle st } : State).upstream)
      ∧ ∀ e, x.tc.episode = some e → x.tc.state = .locked → x.state ≠ .aborting →
        (e.lockoutPending = true →
            exec (.threaded st) s =
              .next ({ s with
                works := (w0.upd st fun x =>
                  { x with
                    pair := []
                    tc := { x.tc with
                      state := .idle
                      episode := some { e with attempts := e.attempts + 1, reason := some .lockout } } }).settle st } : State).upstream)
          ∧ (e.lockoutPending = false → ∃ w1 : Works,
            exec (.threaded st) s = .next ({ s with works := w1.settle st } : State).upstream
              ∧ w1.time = s.works.time ∧ w1.pool = s.works.pool ∧ (∀ j ≠ st, w1.station j = s.works.station j)
              ∧ (∀ j ≠ e.contour, x.current = some e.contour → w1.contour? j = s.works.contour? j)
              ∧ (w1.contour? e.contour).map (fun c => c.prog.offset) =
                (s.works.contour? e.contour).map (fun _ => e.offset)
              ∧ (w1.station st).pair = [] ∧ (w1.station st).wire = .threaded
              ∧ (w1.station st).wirePlace = (if e.kind = .startHole then .startHole else .inCut)
              ∧ (w1.station st).tc = { x.tc with state := .idle, ok := true, fail := false, episode := none }
              ∧ (x.reports.length < 32 → (w1.station st).reports =
                x.reports ++
                  [{ stamp := s.works.time
                     body := .thread e.kind e.contour .threaded (e.attempts + 1) e.offset }])
              ∧ (∀ c, x.current = some e.contour → s.works.contour? e.contour = some c → x.recovery = none →
                x.pass = none → (w1.contour? e.contour).map Contour.state = some .cutting
                  ∧ (w1.station st).activity = .cutting)
              ∧ (((ended true).report st (.thread e.kind e.contour .threaded (e.attempts + 1) e.offset)).modContour
                  e.contour fun c => { c with prog := { c.prog with offset := e.offset } }).SuccessFollows st e.kind w1)

/-- ABANDONED (R97, R100): in ABANDONING the ABANDON leaves the pair and its reason is acted on. A miss moves the offset by
+1 after SHORT and −1 after LONG, or ends the episode with ADJ_LIMIT when it would pass the bound; a broken attempt, a
lockout under RETRY and a clearance keep the offset. The next attempt is then due with its variables set afresh, or the
episode ends with THREAD_ATTEMPTS at the limit. Under FAIL a lockout ends it with LOCKOUT. A failed episode leaves no record,
sets THREAD_FAIL and THREAD_FAILED and builds its THREAD report with its outcome, attempts and offset (R107); a failed
in-kerf one of a recovery goes on at the start hole (R123), and a failed start-hole one fails the current contour with its
outcome as the cause (R66, R124, R142, R153, R154). In a teardown the episode ends ABORTED with the wire UNTHREADED (R108);
that its report carries the offset unmoved is the model's choice (log entry 28). -/
def Obligations.AbandonedActsOnItsReason : Prop :=
  ∀ (s : State) (st : St),
    let x := s.works.station st
    let w0 := s.works.upd st fun x => { x with linkUp := true }
    (x.tc.episode = none ∨ x.tc.state ≠ .abandoning →
        exec (.abandoned st) s = .next ({ s with works := w0.settle st } : State).upstream)
      ∧ ∀ e, x.tc.episode = some e → x.tc.state = .abandoning →
        let due : Episode → Prop := fun e' =>
          exec (.abandoned st) s =
            .next ({ s with
              works := (w0.upd st fun x =>
                { x with
                  pair := []
                  tc := { x.tc with
                    state := .idle
                    episode := some
                      { e' with
                        reason := none, lockRun := 0, lastMiss := none, broken := false
                        lockoutPending := false } } }).settle st } : State).upstream
        let ended : ThreadOutcome → Int → Works := fun out offset =>
          (w0.upd st fun x =>
            { x with pair := [], tc := { x.tc with state := .idle, ok := false, fail := true, episode := none } }).report st
              (.thread e.kind e.contour out e.attempts offset)
        let failed : ThreadOutcome → Cause → Int → Prop := fun out cause offset =>
          let w1 := (ended out offset).raise flagThreadFailed
          ∃ w2 : Works,
            exec (.abandoned st) s = .next ({ s with works := w2.settle st } : State).upstream
              ∧ (e.kind = .inKerf →
                w2 = w1.upd st fun x =>
                  { x with recovery := x.recovery.map fun r => { r with path := some .startHole, step := .travel } })
              ∧ (e.kind = .startHole → (∀ id, x.current = some id → s.works.contour? id = none) → w2 = w1)
              ∧ ∀ id c, e.kind = .startHole → x.current = some id → s.works.contour? id = some c →
                w1.Fails st id c cause none w2
        let spent : Episode → Prop := fun e' =>
          (e.attempts ≠ e.attemptLimit → due e')
            ∧ (e.attempts = e.attemptLimit → failed .threadAttempts .threadAttempts e'.offset)
        let moved : Int := match e.lastMiss with
          | some .short => e.offset + 1
          | some .long => e.offset - 1
          | none => e.offset
        let inside := -(e.offsetBound : Int) ≤ moved ∧ moved ≤ (e.offsetBound : Int)
        (x.state ≠ .aborting →
            (e.reason = some .miss → ¬inside → failed .adjLimit .adjLimit e.offset)
              ∧ (e.reason = some .miss → inside → spent { e with offset := moved })
              ∧ (e.reason = some .broken ∨ (e.reason = some .lockout ∧ e.relock = .retry) → spent e)
              ∧ (e.reason = some .lockout → e.relock = .fail → failed .lockout .lockout e.offset)
              ∧ (e.reason = some .clearance → spent { e with clearanceDue := false })
              ∧ (e.reason = none →
                exec (.abandoned st) s =
                  .next ({ s with
                    works := (w0.upd st fun x =>
                      { x with pair := [], tc := { x.tc with state := .idle } }).settle st } : State).upstream))
          ∧ (x.state = .aborting →
            exec (.abandoned st) s =
              .next ({ s with
                works := ((ended .aborted e.offset).upd st fun x =>
                  { x with wire := .unthreaded, wirePlace := .nowhere }).settle st } : State).upstream)

/-! ## Path Admission -/

/-- The checks of admission in their order: program, tag, sequence, fields, room, handles, contour and chain. The first that
fails refuses the frame: one REFUSAL report with the sequence, the reason, the expected sequence (none when the station is
IDLE) and the credits, and nothing else changes (R39, R41, R44). A frame that fails none of them is not refused. What the fields must be is R35's and R40's (12.2). -/
def Obligations.RefusedFramesOnlyReport : Prop :=
  (∀ f : PathFrame, f.fieldsOk = true ↔
      (let k := f.kind.toNat
       let n := f.length.toNat
       k ≤ 6 ∧ f.flags.toNat < 16
        ∧ f.rest.length = (if k ≤ 3 then 6 else 0) + (if k = 1 ∨ k = 2 then 6 else 0)
            + (if f.flags.getLsbD 3 = true then 6 else 0)
        ∧ (k ≤ 3 → 1 ≤ n ∧ n ≤ 1000000 ∧ f.feed.toNat ≤ 15)
        ∧ (k = 4 → 1 ≤ n ∧ n ≤ 65535) ∧ (5 ≤ k → n = 0)
        ∧ (4 ≤ k → f.feed = 0 ∧ f.flags.getLsbD 3 = false)
        ∧ (k ≤ 2 → f.contour ≠ 0 ∧ 1 ≤ f.ordinal.toNat ∧ f.ordinal.toNat ≤ 4095
            ∧ (f.flags.getLsbD 0 = true ↔ f.ordinal.toNat = 1))
        ∧ (3 ≤ k → f.contour = 0 ∧ f.ordinal = 0 ∧ f.flags.getLsbD 0 = false ∧ f.flags.getLsbD 1 = false)))
    ∧ ∀ (s : State) (f : PathFrame) (st : St), stationOf f.station = some st →
      let x := s.works.station st
      let refuse : RefusalReason → Prop := fun reason =>
        exec (.pathFrame f) s =
          .next ({ s with
            works := s.works.report st
              (.refusal f.seq reason (if x.state = .idle then none else x.adm.program.map Program.expected)
                (128 - x.adm.queue.length)) } : State).upstream
      let isCut := f.kind.toNat ≤ 2
      let named := s.works.contour? f.contour.toNat
      (x.state = .idle → refuse .noProgram)
        ∧ (x.state = .aborting → refuse .aborting)
        ∧ ∀ p, x.state = .active ∨ x.state = .held → x.adm.program = some p →
          (p.closed = true → refuse .closed)
            ∧ (p.closed = false → f.tag ≠ p.tag → refuse .stale)
            ∧ (p.closed = false → f.tag = p.tag → f.seq ≠ p.expected → refuse .seq)
            ∧ (p.closed = false → f.tag = p.tag → f.seq = p.expected →
              (f.fieldsOk = false → refuse .badField)
                ∧ (f.fieldsOk = true → 128 ≤ x.adm.queue.length → refuse .full)
                ∧ (f.fieldsOk = true → x.adm.queue.length < 128 →
                  (f.flags.getLsbD 2 = true → x.adm.handles = 0xFF → refuse .markBusy)
                    ∧ (f.flags.getLsbD 2 = false ∨ x.adm.handles ≠ 0xFF →
                      (isCut → (∀ c, named = some c → c.cfg.station ≠ st) → refuse .undefined)
                        ∧ (¬isCut → x.adm.openContour ≠ none → refuse .chain)
                        ∧ (¬isCut → x.adm.openContour = none → s.works.judge st f = none)
                        ∧ ∀ c, isCut → named = some c → c.cfg.station = st →
                          let broken :=
                            (f.flags.getLsbD 0 = true ∧ (x.adm.openContour ≠ none ∨ c.state ≠ .defined))
                              ∨ (f.flags.getLsbD 0 = false ∧ x.adm.openContour ≠ some f.contour.toNat)
                              ∨ f.ordinal.toNat ≠ c.prog.arrived + 1
                              ∨ ¬(f.flags.getLsbD 1 = true ↔ f.ordinal.toNat = c.cfg.segments)
                          (broken → refuse .chain) ∧ (¬broken → s.works.judge st f = none))))

/-- A frame that no check refuses (`judge` answers none, RefusedFramesOnlyReport) is accepted (R42): the expected sequence rises, END_PROGRAM closes the program, a MARK takes
the first FREE handle after last assigned (R47), FIRST opens its contour and makes it QUEUED, LAST ends the open contour,
and arrived rises. It joins the tail of the queue (R45), and the sequencer looks at it. Its segment is the frame's own: kind,
length and feed class; the end point of a cut kind or TRAVEL, the centre of an arc and the taper of a TAPER frame, from the
bytes behind the feed class in 12.2's order (R34). The frame's fields stand in a received frame where 12.2 places them, two and
three bytes with the most significant first. The frame of a FAILED contour is
absorbed instead: consumed through moves to it and its mark is DISCARDED at once (R43); that PROGRESS comes before that mark
is the model's reading (log entry 16). -/
def Obligations.AcceptedFramesJoinTheQueue : Prop :=
  (∀ bytes f, receiveFrame bytes = some (.path f) →
      let b : Nat → Byte := fun i => byteAt bytes (i + 2)
      f = { station := b 0, tag := b 1, seq := b 2 ++ b 3, kind := b 4, flags := b 5, contour := b 6, ordinal := b 7 ++ b 8
            length := b 9 ++ b 10 ++ b 11, feed := b 12, rest := (bytes.take (bytes.length - 2)).drop 15 })
    ∧ (∀ (f : PathFrame) (k : PathKind), pathKindOf f.kind = some k →
      let at3 : Nat → Coord := fun i => byteAt f.rest i ++ byteAt f.rest (i + 1) ++ byteAt f.rest (i + 2)
      let isArc := k = .arcCw ∨ k = .arcCcw
      let q := f.segment k
      (k = if f.kind = 0 then .cutLine else if f.kind = 1 then .arcCw else if f.kind = 2 then .arcCcw
          else if f.kind = 3 then .travel else if f.kind = 4 then .dwell else if f.kind = 5 then .tabs else .endProgram)
        ∧ q.kind = k ∧ q.length = f.length.toNat ∧ q.feed = f.feed.toNat
        ∧ (f.kind.toNat ≤ 3 → q.endX = at3 0 ∧ q.endY = at3 3)
        ∧ q.centre = (if isArc then some (at3 6, at3 9) else none)
        ∧ (f.flags.getLsbD 3 = false → q.taper = none)
        ∧ (f.flags.getLsbD 3 = true → isArc → q.taper = some (at3 12, at3 15))
        ∧ (f.flags.getLsbD 3 = true → ¬isArc → q.taper = some (at3 6, at3 9)))
    ∧ ∀ (s : State) (f : PathFrame) (st : St) (p : Program), stationOf f.station = some st →
    s.works.judge st f = none → (s.works.station st).adm.program = some p →
    let x := s.works.station st
    let id := f.contour.toNat
    let isCut := f.kind.toNat ≤ 2
    let absorbed := isCut ∧ ∃ c, s.works.contour? id = some c ∧ c.state = .failed
    ∃ (k : PathKind) (handle : Option (Fin 8)) (a : Admission) (w1 : Works),
      pathKindOf f.kind = some k
        ∧ (f.flags.getLsbD 2 = false → handle = none ∧ a.handles = x.adm.handles ∧ a.lastAssigned = x.adm.lastAssigned)
        ∧ (f.flags.getLsbD 2 = true → ∃ n : Fin 8, handle = some (x.adm.lastAssigned + 1 + n)
          ∧ (∀ m < n, x.adm.handles.getLsbD (x.adm.lastAssigned + 1 + m).val = true)
          ∧ x.adm.handles.getLsbD (x.adm.lastAssigned + 1 + n).val = false
          ∧ a.handles = x.adm.handles ||| bit8 (x.adm.lastAssigned + 1 + n)
          ∧ a.lastAssigned = x.adm.lastAssigned + 1 + n)
        ∧ a.program = some { p with expected := p.expected + 1, closed := decide (f.kind.toNat = 6) }
        ∧ a.openContour = (if isCut then if f.flags.getLsbD 1 then none else some id else none)
        ∧ a.queue = x.adm.queue
        ∧ w1 = { s.works.upd st fun x => { x with adm := a } with contours := w1.contours }
        ∧ (¬isCut → w1.contours = s.works.contours)
        ∧ (isCut → (∀ j ≠ id, w1.contour? j = s.works.contour? j)
          ∧ w1.contour? id = (s.works.contour? id).map fun c =>
            { c with
              state := if f.flags.getLsbD 0 then .queued else c.state
              prog := { c.prog with arrived := c.prog.arrived + 1 } })
        ∧ (¬absorbed → exec (.pathFrame f) s =
          .next ({ s with
            works := (w1.upd st fun x =>
              { x with
                adm := { x.adm with
                  queue := x.adm.queue ++
                    [{ seq := f.seq, first := f.flags.getLsbD 0, last := f.flags.getLsbD 1, handle := handle
                       contour := id, ordinal := f.ordinal.toNat, seg := f.segment k }] } }).settle st } : State).upstream)
        ∧ (absorbed → exec (.pathFrame f) s =
          .next ({ s with
            works := ((w1.upd st fun x => { x with adm := x.adm.setConsumed f.seq }).progressUpdate st).markReport? st
              (handle.map fun h => { handle := h, seq := f.seq, contour := id }) .discarded } : State).upstream)

/-! ## The Kerf Record Store -/

/-- A request is granted whole when the free slots hold its need, and waits with a KERF_WAIT report and notice otherwise
(R65, R86). A release reports the marks its entries still hold DISCARDED in ordinal order, removes the entries and returns
every slot (R88); with nobody waiting that is all, and last granted stays (R90). A round of the arbiter grants the first
waiting station in rotation whose need fits, and after a release no need fits of a station that waits with its contour
ENTERING, as every waiting one does (R89, R90). Grant and release keep the sum of free and reserved slots (R81). -/
def Obligations.ReservationsAreGrantedWholeOrWait : Prop :=
  ∀ (w : Works) (st : St) (id need : Nat),
    let granted : St → Nat → Nat → Works := fun g id need =>
      { w.modContour id fun c => { c with prog := { c.prog with reservation := need } } with
        pool :=
          { free := w.pool.free + ((w.contour? id).map fun c => c.prog.reservation).getD 0 - need
            waiting := w.pool.waiting.set g none, lastGranted := g } }
    let entering : Works → Nat → Prop := fun w id => ∃ c, w.contour? id = some c ∧ c.state = .entering
    (need ≤ w.pool.free →
        w.requestReservation st id need = granted st id need
          ∧ ((∃ c, w.contour? id = some c) → (w.requestReservation st id need).slots = w.slots))
      ∧ (w.pool.free < need →
        w.requestReservation st id need =
          ((({ w with pool := { w.pool with waiting := w.pool.waiting.set st (some { contour := id, need := need }) } }.upd
              st fun x => { x with activity := .waitKerf }).report st (.kerfWait id need)).raise flagKerfWait))
      ∧ (∀ c, w.contour? id = some c →
        (c.prog.reservation = 0 → w.release id = w)
          ∧ (c.prog.reservation ≠ 0 →
            (w.release id).slots = w.slots
              ∧ (∀ g r, (w.release id).pool.waiting.get g = some r → entering (w.release id) r.contour →
                (w.release id).pool.free < r.need)
              ∧ ((∀ g, w.pool.waiting.get g = none) →
                w.release id =
                    { (w.markReports c.cfg.station
                          (c.kerf.filterMap fun e =>
                            e.handle.map fun h => { handle := h, seq := e.seq, contour := id }) .discarded).modContour id
                        fun c => { c with kerf := [], prog := { c.prog with reservation := 0 } } with
                      pool := { w.pool with free := w.pool.free + c.prog.reservation } }
                  ∧ (w.release id).contour? id = some { c with kerf := [], prog := { c.prog with reservation := 0 } }
                  ∧ ∀ j ≠ id, (w.release id).contour? j = w.contour? j)))
      ∧ ((∀ g r, w.pool.waiting.get g = some r → w.pool.free < r.need ∨ ¬entering w r.contour) → w.arbiterRound = none)
      ∧ ∀ before g after r, rotation w.pool.lastGranted = before ++ g :: after →
        (∀ b ∈ before, ∀ q, w.pool.waiting.get b = some q → w.pool.free < q.need ∨ ¬entering w q.contour) →
        w.pool.waiting.get g = some r → r.need ≤ w.pool.free → entering w r.contour →
        w.arbiterRound = some ((granted g r.contour r.need).upd g fun x => { x with activity := .entering })

/-! ## The Station Sequencer's own actions -/

/-- The main pass of an ACTIVE station whose work is not stopped (R67, R69): the PENDING entry of lowest ordinal is issued
again from its progress; else, at the tab ordinal with the pair empty, the WIRE_CUT that ends the main pass; else the frame
of the next ordinal at the head leaves the queue, is recorded ISSUED and runs as a CUT move. CUT moves only into the place
of a pair with room while the wire is THREADED. And the eighth law: whatever a sequencer does, no CUT or KERF move
joins the pair of a station whose wire is not THREADED, unless one was returned by a stop. A kerf record in ordinal order (R85;
every step keeps it so, StepKeepsRangesAndTable) stays so when an entry is recorded. What the stations do of their own accord
after an event, `settle`, begins with the reservation requests held since an earlier event falling due (log entry 33), and is
then one action of `act` after another until no station has any: the event's station first, then the first station after it in
rotation that has one; this order is the model's choice (log entry 20). -/
def Obligations.MainPassIssuesInOrder : Prop :=
  (∀ (w : Works) (st : St),
      w.settle st = w.requestsDue.run st
        ∧ w.requestsDue = { w with stations := w.requestsDue.stations }
        ∧ (∀ j, (w.station j).kerfRequest ≠ .held → w.requestsDue.station j = w.station j)
        ∧ (∀ j, (w.station j).kerfRequest = .held → w.requestsDue.station j = { w.station j with kerfRequest := .due })
        ∧ ((∀ j, w.act j = none) → w.run st = w)
        ∧ (∀ w', w.act st = some w' → w.run st = w'.run st)
        ∧ (∀ before j after w', [st + 1, st + 2, st + 3] = before ++ j :: after → w.act st = none →
          (∀ b ∈ before, w.act b = none) → w.act j = some w' → w.run st = w'.run st)
        ∧ ∀ j, (w.settle st).act j = none)
    ∧ (∀ c : Contour, c.kerfLaw →
      (c.lowestPending = none ↔ ∀ e ∈ c.kerf, e.state ≠ .pending)
        ∧ (∀ e, c.lowestPending = some e →
          e ∈ c.kerf ∧ e.state = .pending ∧ ∀ o ∈ c.kerf, o.state = .pending → e.ordinal ≤ o.ordinal)
        ∧ ∀ e, ({ c with kerf := kerfInsert e c.kerf } : Contour).kerfLaw
          ∧ (kerfInsert e c.kerf).Perm (e :: c.kerf)
          ∧ ∃ before after, kerfInsert e c.kerf = before ++ e :: after ∧ c.kerf = before ++ after)
    ∧ (∀ (w w' : Works) (st : St), w.act st = some w' →
      (∀ r ∈ (w.station st).returned, r.body.isCutOrKerf = false) →
      ∀ o ∈ (w'.station st).pair, o ∉ (w.station st).pair → o.body.isCutOrKerf = true →
      (w.station st).wire = .threaded)
    ∧ ∀ (w : Works) (st : St) (id : Nat) (c : Contour),
      let x := w.station st
      let issued : OpBody → Works → Works := fun body w => w.upd st fun x =>
        { x with
          pair := x.pair ++ [{ issue := x.nextIssue, body := body }], nextIssue := x.nextIssue + 1
          underrunReported := false }
      let room := x.pair.length < 2 ∧ ∀ o ∈ x.pair, o.body.isTool = false
      x.state = .active → x.stopAwaited = false → x.returned = [] → x.current = some id → w.contour? id = some c →
      c.prog.pendingFailure = none → x.recovery = none → x.tc.episode = none → c.state = .cutting →
      x.activity = .cutting → c.mainEnded = false → x.linkUp = true →
        (∀ e, c.lowestPending = some e →
            (x.wire = .threaded → room →
              w.act st = some
                (issued (.move .cut .forward e.progress e.seg (.mainEntry id e.ordinal))
                  (w.modContour id fun c => c.modEntry e.ordinal fun e => { e with state := .issued })))
              ∧ (x.wire ≠ .threaded ∨ ¬room → w.act st = none))
          ∧ (c.lowestPending = none → c.plan.tabOrdinal? = some (c.h + 1) →
            (x.pair = [] → w.act st = some
                (issued (.wireCut .mainEnd) (w.modContour id fun c => { c with mainEnded := true })))
              ∧ (x.pair ≠ [] → w.act st = none))
          ∧ (c.lowestPending = none → c.plan.tabOrdinal? ≠ some (c.h + 1) →
            (x.adm.queue = [] → w.act st = none)
              ∧ ∀ q rest, x.adm.queue = q :: rest →
                (q.contour = id → q.ordinal = c.h + 1 → x.wire = .threaded → room →
                    w.act st = some
                      (issued (.move .cut .forward 0 q.seg (.mainEntry id q.ordinal))
                        ((w.modContour id fun c =>
                          { c with
                            kerf := kerfInsert
                              { ordinal := q.ordinal, seg := q.seg, seq := q.seq, handle := q.handle, state := .issued
                                progress := 0, direction := some .forward } c.kerf }).consumeHead st)))
                  ∧ (q.contour ≠ id ∨ q.ordinal ≠ c.h + 1 ∨ x.wire ≠ .threaded ∨ ¬room → w.act st = none))

/-- The head of the queue of an ACTIVE station with no current contour, the entry, and tail intake. A FIRST frame begins its
contour's entry with the pair empty: the forced-tab-pass check, and straight away, when it calls for no pass, the contour is
current and ENTERING (R64, R65). Its reservation is asked for at once or, as a free value decides, held until the next event
(log entry 33), where another station's grant can have come between: the station then waits with its deferred contours on the
list (R89). With its request made the entry cuts a wire in, travels to the thread point in the frame's feed class and asks for
its episode (R66). A TRAVEL starts into the pair's free place with the wire UNTHREADED, after a WIRE_CUT when it is UNKNOWN or
BROKEN (R75); a DWELL and a TABS start with the pair empty (R76); END_PROGRAM, its pass over, reports its mark DONE just
before PROGRAM_END and leaves the station IDLE (R77, R78). While a STOP is awaited what issues nothing still starts, and
nothing is issued (R60). Tail intake takes the contour's frame at the head, ACTIVE or HELD, and the last one makes the contour
DEFERRED (R70). -/
def Obligations.DirectivesAndTailsLeaveTheQueue : Prop :=
  ∀ (w : Works) (st : St),
    let x := w.station st
    let issued : OpBody → Works → Works := fun body w => w.upd st fun x =>
      { x with
        pair := x.pair ++ [{ issue := x.nextIssue, body := body }], nextIssue := x.nextIssue + 1
        underrunReported := false }
    (∀ e rest, x.adm.queue = e :: rest →
        w.consumeHead st =
          (w.upd st fun x =>
            { x with
              adm := { x.adm with
                queue := rest, program := x.adm.program.map fun p => { p with consumed := e.seq } } }).progressUpdate st)
      ∧ (∀ w', x.stopAwaited = true → w.act st = some w' →
        (w'.station st).pair = x.pair ∧ (w'.station st).nextIssue = x.nextIssue)
      ∧ (∀ e rest c, x.state = .active → x.returned = [] → x.current = none → x.failureCutDue = false → x.pass = none →
        x.endProgram = none → x.adm.queue = e :: rest → e.first = true → w.contour? e.contour = some c →
        e.seg.kind = .cutLine ∨ e.seg.kind = .arcCw ∨ e.seg.kind = .arcCcw →
        let forced := (c.plan.tabOrdinal? ≠ none ∧ 32 ≤ x.deferred.length)
          ∨ (w.pool.free < c.cfg.segments ∧ x.deferred ≠ [])
        let entered :=
          ({ w with freeCount := w.freeCount + 1 }.modContour e.contour fun c => { c with state := .entering }).upd st fun x =>
            { x with current := some e.contour, activity := .entering, kerfRequest := .none }
        (x.pair ≠ [] → w.act st = none)
          ∧ (x.pair = [] → forced → w.act st = some (w.upd st fun x =>
            { x with pass := some { trigger := .forced, work := none }, activity := .tabPass }))
          ∧ (x.pair = [] → ¬forced → w.act st = some
            (if Config.requestFollows w.freeCount = true then entered.requestReservation st e.contour c.cfg.segments
              else entered.upd st fun x => { x with kerfRequest := .held })))
      ∧ (∀ id c, x.state = .active → x.returned = [] → x.current = some id → w.contour? id = some c →
        c.prog.pendingFailure = none → x.tc.episode = none → c.state ≠ .tailIntake →
        (c.state = .entering → x.recovery = none → x.kerfRequest ≠ .none →
            (x.kerfRequest = .held ∨ x.pair ≠ [] → w.act st = none)
              ∧ (x.kerfRequest = .due → x.pair = [] → w.act st = some
                ((w.upd st fun x => { x with kerfRequest := .none }).requestReservation st id c.cfg.segments))
              ∧ (x.kerfRequest = .due → x.pair = [] → w.pool.free < c.cfg.segments → ∃ w', w.act st = some w'
                ∧ w'.pool.waiting.get st = some { contour := id, need := c.cfg.segments }
                ∧ w'.pool.free = w.pool.free ∧ w'.contours = w.contours ∧ (w'.station st).deferred = x.deferred
                ∧ (w'.station st).activity = .waitKerf ∧ (w'.station st).current = some id))
          ∧ (c.state = .entering → x.recovery = none → x.kerfRequest = .none →
            (x.activity = .threading → x.pair = [] → w.act st = some (w.startEpisode st .startHole id c))
              ∧ (x.stopAwaited = true → x.activity ≠ .threading → w.act st = none)
              ∧ (x.stopAwaited = false → x.linkUp = true →
                (x.activity = .entering → x.pair = [] → x.wire ≠ .unthreaded →
                    w.act st = some (issued (.wireCut .entry) w))
                  ∧ (∀ e rest, x.activity = .entering → x.pair = [] → x.wire = .unthreaded → x.adm.queue = e :: rest →
                    w.act st = some (issued
                      (.move .travel .forward 0
                        { kind := .travel, length := 0, endX := c.cfg.threadX, endY := c.cfg.threadY, centre := none
                          taper := none, feed := e.seg.feed } .entryTravel) w))
                  ∧ (x.activity = .waitKerf ∨ x.pair ≠ [] → w.act st = none)))
          ∧ ∀ r, x.stopAwaited = true → x.pair = [] → x.recovery = some r →
            (r.step = .startHole → w.act st = some (w.startEpisode st .startHole id c))
              ∧ (r.step ≠ .startHole → w.act st = none))
      ∧ (∀ e rest, x.state = .active → x.returned = [] → x.current = none → x.failureCutDue = false → x.pass = none →
        x.endProgram = none → x.adm.queue = e :: rest →
        let start : Activity → Works := fun act =>
          (w.consumeHead st).upd st fun x =>
            { x with directiveMarks := x.directiveMarks ++ e.mark.toList, activity := act }
        (e.seg.kind = .travel → x.stopAwaited = false → x.linkUp = true → x.wire = .unthreaded → x.pair.length < 2 →
            (∀ o ∈ x.pair, o.body.isTool = false) →
            w.act st = some (issued (.move .travel .forward 0 e.seg (.directive e.mark)) (start .travelling)))
          ∧ (e.seg.kind = .travel → x.stopAwaited = false → x.linkUp = true → x.wire = .unknown ∨ x.wire = .broken →
            x.pair = [] →
            w.act st = some (issued (.wireCut .directive) (w.upd st fun x => { x with activity := .travelling })))
          ∧ (e.seg.kind = .dwell → x.stopAwaited = false → x.linkUp = true → x.pair = [] →
            w.act st = some (issued (.dwell e.seg.length e.mark) (start .dwelling)))
          ∧ (e.seg.kind = .travel ∨ e.seg.kind = .dwell → x.stopAwaited = true → w.act st = none)
          ∧ (e.seg.kind = .dwell ∨ e.seg.kind = .tabs ∨ e.seg.kind = .endProgram → x.pair ≠ [] → w.act st = none)
          ∧ (e.seg.kind = .tabs → x.pair = [] →
            w.act st = some (((w.consumeHead st).markReport? st e.mark .done).upd st fun x =>
              if x.deferred = [] then { x with activity := .waiting }
              else { x with activity := .tabPass, pass := some { trigger := .tabs, work := none } }))
          ∧ (e.seg.kind = .endProgram → x.pair = [] →
            w.act st = some ((start .waiting).upd st fun x =>
              if x.deferred = [] then { x with endProgram := some e.seq }
              else { x with
                endProgram := some e.seq, activity := .tabPass
                pass := some { trigger := .endProgram, work := none } })))
      ∧ (∀ seq p, x.state = .active → x.returned = [] → x.current = none → x.failureCutDue = false →
        x.pass = none → x.endProgram = some seq → x.pair = [] → x.adm.program = some p →
        let marked := (w.markReports st x.directiveMarks .done).upd st fun x => { x with directiveMarks := [] }
        (x.directiveMarks = [] → marked = w)
          ∧ w.act st = some ((marked.report st (.programEnd p.tag seq x.completed x.failed)).upd st fun x =>
          { x with
            state := .idle, activity := .waiting, endProgram := none, teardown := none, kerfRequest := .none
            adm := { x.adm with program := none, openContour := none }
            tc := { x.tc with params := x.tc.staged.getD x.tc.params, staged := none } }))
      ∧ ∀ e rest id c, x.state = .active ∨ x.state = .held → x.current = some id → w.contour? id = some c →
        c.state = .tailIntake → x.adm.queue = e :: rest → e.contour = id →
        let w1 := (w.modContour id fun c =>
          { c with
            kerf := kerfInsert
              { ordinal := e.ordinal, seg := e.seg, seq := e.seq, handle := e.handle, state := .tail, progress := 0
                direction := none } c.kerf }).consumeHead st
        (e.ordinal ≠ c.cfg.segments → w.act st = some w1)
          ∧ (e.ordinal = c.cfg.segments → ∃ w2 : Works, w.act st = some w2
            ∧ w2.contour? id = (w1.contour? id).map (fun c => { c with state := .deferred })
            ∧ (w2.station st).deferred = x.deferred ++ [id] ∧ (w2.station st).current = none
            ∧ (w2.station st).pair = x.pair ∧ (x.pass = none → (w2.station st).activity = .waiting))

/-- Recoveries and tab passes of an ACTIVE station whose work is not stopped. A recovery at DUE issues its WIRE_CUT when the
work needs cutting, at TRAVEL the travel to the thread point, at START_HOLE and IN_KERF asks for the episode, and at
TRAVERSE issues the next KERF move of its list or ends (R121 to R125, R139). A pass with no contour starts on the head of its
list, which becomes TAB_CUTTING and current, and ends when the list is empty, a forced one by the entry that waited for it
(R132, R133); its contour's traverse part is run as KERF moves and its tail as CUT moves in the order of the approach
(R134, R135). A recovery that ends returns the activity to CUTTING or TAB_PASS (R125). The removal of a record that needs no
cutting, with the activity it leaves, is log entry 18's, approach next past the traverse part after a recovery log entry 32's,
the feed class of a travel without the contour's kerf entry of ordinal 1 log entry 29's, and that the end of a forced pass and
the reservation request behind it are one action log entry 33's. -/
def Obligations.RecoveriesAndPassesTakeTheirSteps : Prop :=
  (∀ c : Contour,
      (c.state = .cutting →
          (c.needsCutting = true ↔ c.mainEnded = false
            ∧ ((∃ e ∈ c.kerf, e.state = .pending)
              ∨ (c.prog.cursor < c.cfg.segments ∧ c.plan.tabOrdinal? ≠ some (c.h + 1)))))
        ∧ (c.state = .tabCutting →
          (c.needsCutting = true ↔ ∃ e ∈ c.kerf, e.state = .tail ∨ e.state = .tailIssued))
        ∧ (c.state ≠ .cutting → c.state ≠ .tabCutting → c.needsCutting = false)
        ∧ (∀ p : PassWork,
          c.traversePart p = c.kerf.filter fun e =>
            decide (e.state = .cut ∧ e.ordinal ≤ if p.approach = .forward then p.t - 1 else c.cfg.leadIn))
        ∧ c.nextTail .forward = c.kerf.find? (fun e => decide (e.state = .tail))
        ∧ c.nextTail .reverse = c.kerf.reverse.find? (fun e => decide (e.state = .tail)))
    ∧ (∀ (w : Works) (st : St) (id : Nat) (c : Contour),
      ((w.station st).inPass id = false →
          w.traverseList st id c =
            (c.kerf.filter fun e => decide (e.state = .cut ∧ e.ordinal ≤ c.mainBoundary.1 - 1)).map fun e =>
              (.forward, e))
        ∧ ∀ trigger p, (w.station st).pass = some { trigger := trigger, work := some p } → p.contour = id →
          w.traverseList st id c =
            (c.traversePart p).map (fun e => (.forward, e))
              ++ ((if p.approach = .forward then c.kerf else c.kerf.reverse).filter fun e =>
                decide (e.state = .tailCut)).map fun e => (p.approach, e))
    ∧ ∀ (w : Works) (st : St),
    let x := w.station st
    let issued : OpBody → Works → Works := fun body w => w.upd st fun x =>
      { x with
        pair := x.pair ++ [{ issue := x.nextIssue, body := body }], nextIssue := x.nextIssue + 1
        underrunReported := false }
    let room := x.pair.length < 2 ∧ ∀ o ∈ x.pair, o.body.isTool = false
    x.state = .active → x.stopAwaited = false → x.returned = [] → x.linkUp = true →
      (∀ id c, x.current = some id → w.contour? id = some c → c.prog.pendingFailure = none → c.state ≠ .tailIntake →
          let travel : MoveWork → OpBody := fun work =>
            .move .travel .forward 0
              { kind := .travel, length := 0, endX := c.cfg.threadX, endY := c.cfg.threadY, centre := none
                taper := none
                feed := match c.entry? 1 with
                  | some e => e.seg.feed
                  | none =>
                    match x.adm.queue.find? fun e => e.first && e.contour == id with
                    | some e => e.seg.feed
                    | none => 0 } work
          (∀ r, x.recovery = some r →
              (r.step = .due → x.pair = [] → c.needsCutting = true →
                  w.act st = some (issued (.wireCut .recovery) (w.upd st fun x =>
                    { x with recovery := some { r with step := .wireCut }, activity := .recovering })))
                ∧ (r.step = .due → x.pair = [] → c.needsCutting = false →
                  w.act st = some (w.upd st fun x =>
                    { x with recovery := none, activity := c.returnsTo x.pass.isSome }))
                ∧ (r.step = .wireCut → w.act st = none)
                ∧ (r.step = .travel → x.pair = [] → w.act st = some (issued (travel .recoveryTravel) w))
                ∧ (r.step = .startHole ∨ r.step = .inKerf → x.pair = [] → x.tc.episode = none →
                  w.act st = some (w.startEpisode st (if r.step = .inKerf then .inKerf else .startHole) id c))
                ∧ (∀ n d e, r.step = .traverse → r.next = some n → (w.traverseList st id c)[n]? = some (d, e) →
                  x.wire = .threaded → room →
                  ∃ w', w.act st = some (issued (.move .kerf d 0 e.seg (.traverse id e.ordinal)) w')
                    ∧ (n + 1 < (w.traverseList st id c).length →
                      w' = w.upd st fun x => { x with recovery := some { r with next := some (n + 1) } })
                    ∧ ((w.traverseList st id c).length ≤ n + 1 → w.RecoveryEnds st c w'))
                ∧ (∀ n, r.step = .traverse → r.next = some n → (w.traverseList st id c).length ≤ n →
                  x.wire = .threaded → room → ∃ w', w.act st = some w' ∧ w.RecoveryEnds st c w'))
            ∧ ∀ trigger p, x.recovery = none → x.tc.episode = none → c.state = .tabCutting →
              x.pass = some { trigger := trigger, work := some p } → p.contour = id →
              let next : Nat → Works → Works := fun n w => w.upd st fun x =>
                { x with pass := some { trigger := trigger, work := some { p with next := n } } }
              (p.step = .travel → x.pair = [] →
                  w.act st = some (if x.wire = .unthreaded then issued (travel .passTravel) w
                    else issued (.wireCut .pass) w))
                ∧ (p.step = .threading → x.pair = [] → w.act st = some (w.startEpisode st .startHole id c))
                ∧ (∀ e, p.step = .approach → (c.traversePart p)[p.next]? = some e → x.wire = .threaded → room →
                  w.act st = some
                    (issued (.move .kerf .forward 0 e.seg (.traverse id e.ordinal)) (next (p.next + 1) w)))
                ∧ (∀ e, p.step = .approach → (c.traversePart p).length ≤ p.next → c.nextTail p.approach = some e →
                  x.wire = .threaded → room →
                  w.act st = some
                    (issued (.move .cut p.approach e.progress e.seg (.tailEntry id e.ordinal))
                      (next (if e.direction = none then p.next + 1 else p.next)
                        (w.modContour id fun c => c.modEntry e.ordinal fun e =>
                          { e with state := .tailIssued, direction := some p.approach })))))
        ∧ ∀ trigger, x.current = none → x.failureCutDue = false → x.pass = some { trigger := trigger, work := none } →
          x.pair = [] →
          (∀ id rest c t approach confirm, x.deferred = id :: rest → w.contour? id = some c →
              c.plan.mode = .tab t approach confirm →
              w.act st = some ((w.modContour id fun c => { c with state := .tabCutting }).upd st fun x =>
                { x with
                  deferred := rest, current := some id
                  pass := some
                    { trigger := trigger
                      work := some { contour := id, t := t, approach := approach, step := .travel, next := 0 } } }))
            ∧ (x.deferred = [] →
              let ended := w.upd st fun x => { x with pass := none, activity := .waiting }
              (trigger = .tabs ∨ trigger = .endProgram ∨ x.adm.queue = []
                    ∨ (∀ e, x.adm.queue.head? = some e → w.contour? e.contour = none) → w.act st = some ended)
                ∧ ∀ e rest c, trigger = .forced → x.adm.queue = e :: rest → w.contour? e.contour = some c →
                  w.act st = some
                    (((ended.modContour e.contour fun c => { c with state := .entering }).upd st fun x =>
                      { x with current := some e.contour, activity := .entering, kerfRequest := .none }).requestReservation
                        st e.contour c.cfg.segments))

/-- What an IDLE, a HELD and an ABORTING station does of its own accord. IDLE does nothing, and HELD nothing but tail intake
(R53, R70). ABORTING, with the drive at rest, cuts a THREADED or BROKEN wire, and otherwise clears the program (R158, R159):
first the directives' marks that have left the queue, in the order they left it (log entry 35), and those in it are reported
DISCARDED, with consumed through and PROGRESS; list, current contour, recovery, closing and pass go; every contour of the station that was QUEUED or in a working
state is ABORTED with its reservation released, in R159's order (that of the QUEUED ones is read off the queue, log entry 25);
then TEARDOWN is built with the tag, the first sequence and the number discarded, the contours aborted, those with an uncut
tab, the cause and the wire, and the station is IDLE with no program (R160). -/
def Obligations.TeardownClearsTheProgram : Prop :=
  ∀ (w : Works) (st : St),
    let x := w.station st
    (x.state = .idle → w.act st = none)
      ∧ (x.state = .held →
        (∀ id c, x.current = some id → w.contour? id = some c → c.state ≠ .tailIntake) → w.act st = none)
      ∧ (x.state = .aborting → x.pair ≠ [] ∨ x.stopAwaited = true → w.act st = none)
      ∧ (x.state = .aborting → x.pair = [] → x.stopAwaited = false → x.linkUp = true →
        x.wire = .threaded ∨ x.wire = .broken →
        w.act st = some (w.upd st fun x =>
          { x with
            pair := [{ issue := x.nextIssue, body := .wireCut .teardown }], nextIssue := x.nextIssue + 1
            underrunReported := false }))
      ∧ (x.state = .aborting → x.pair = [] → x.stopAwaited = false → x.wire = .unknown ∨ x.wire = .unthreaded →
        ∃ w' : Works, w.act st = some w'
          ∧ w'.time = w.time
          ∧ (w'.station st).state = .idle ∧ (w'.station st).activity = .waiting ∧ (w'.station st).teardown = none
          ∧ (w'.station st).adm.program = none ∧ (w'.station st).adm.openContour = none
          ∧ (w'.station st).adm.queue = [] ∧ (w'.station st).deferred = [] ∧ (w'.station st).current = none
          ∧ (w'.station st).recovery = none ∧ (w'.station st).closing = none ∧ (w'.station st).pass = none
          ∧ (w'.station st).pair = [] ∧ (w'.station st).directiveMarks = []
          ∧ (w'.station st).wire = x.wire ∧ (w'.station st).holds = x.holds
          ∧ (w'.station st).tc.params = x.tc.staged.getD x.tc.params ∧ (w'.station st).tc.staged = none
          ∧ (w'.station st).completed = x.completed ∧ (w'.station st).failed = x.failed
          ∧ ∀ id c, w.contour? id = some c → c.cfg.station = st →
            (c.state = .queued ∨ c.state.working = true →
                ∃ c', w'.contour? id = some c' ∧ c'.state = .aborted ∧ c'.prog.outcome = some .aborted
                  ∧ c'.prog.pendingFailure = none ∧ c'.prog.arrived = c.prog.arrived ∧ c'.prog.cursor = c.prog.cursor
                  ∧ ((∀ g r, w.pool.waiting.get g = some r → r.contour ≠ id) → c'.prog.reservation = 0))
              ∧ (¬(c.state = .queued ∨ c.state.working = true) →
                ∃ c', w'.contour? id = some c' ∧ c'.state = c.state ∧ c'.cfg = c.cfg ∧ c'.plan = c.plan))
      ∧ (x.state = .aborting → x.pair = [] → x.stopAwaited = false → x.wire = .unknown ∨ x.wire = .unthreaded →
        let owed := (w.markReports st x.directiveMarks .discarded).upd st fun x => { x with directiveMarks := [] }
        let bare : Works → Works := fun v => v.upd st fun x =>
          { x with
            current := none, deferred := [], recovery := none, closing := none, catchWait := none, pass := none
            returned := [], breakPending := false, failureCutDue := false }
        let aborted : Works × Nat × Nat → Nat → Works × Nat × Nat := fun acc id =>
          match acc.1.contour? id with
          | none => acc
          | some c =>
            if c.cfg.station = st ∧ (c.state = .queued ∨ c.state.working = true) then
              ((acc.1.modContour id fun c =>
                { c with
                  state := .aborted
                  prog := { c.prog with pendingFailure := none, outcome := some .aborted } }).release id,
                acc.2.1 + 1,
                acc.2.2 + if c.state = .tailIntake ∨ c.state = .deferred ∨ c.state = .tabCutting then 1 else 0)
            else acc
        let order := x.current.toList ++ x.deferred
          ++ (x.adm.queue.filter fun e => e.first).map (fun e => e.contour) ++ w.contours.map fun p => p.1
        ∃ v : Works,
          (x.adm.queue = [] → v = owed)
            ∧ (∀ e, x.adm.queue.getLast? = some e →
              v = ((owed.markReports st (x.adm.queue.filterMap QEntry.mark) .discarded).upd st fun x =>
                { x with
                  adm := { x.adm with
                    queue := [], program := x.adm.program.map fun p => { p with consumed := e.seq } } }).progressUpdate st)
            ∧ (let r := order.foldl aborted (bare v, 0, 0)
              w.act st = some
                ((r.1.report st
                    (.teardown ((x.adm.program.map fun p => p.tag).getD 0) (x.adm.queue.head?.map fun e => e.seq)
                      x.adm.queue.length r.2.1 r.2.2 (x.teardown.getD .request) x.wire)).upd st fun x =>
                  { x with
                    state := .idle, activity := .waiting, endProgram := none, teardown := none, kerfRequest := .none
                    adm := { x.adm with program := none, openContour := none }
                    tc := { x.tc with params := x.tc.staged.getD x.tc.params, staged := none } })))

/-! ## Laws that every step keeps -/

/-- The machine after reset keeps every law of the statements below. That the calibration store it finds is valid and full
is the model's choice (log entry 3), as are the LOW pins (log entry 4). -/
def Obligations.ResetKeepsTheLaws : Prop :=
  State.reset.good ∧ State.reset.holdLaw ∧ State.reset.episodeLaw ∧ State.reset.gapInRange ∧ State.reset.tableLaw
    ∧ State.reset.slotLaw ∧ State.reset.kerfLaw ∧ State.reset.pending = []

/-- Every step keeps the bounds of the manual's queues, counts and pairs: 8 buffered frames (R178), 16 replies built or
reserved (R180), 128 queued frames (R45), 32 reports (R182), saturated counts (R177, R182), and at most two operations
outstanding with a tool operation alone (R57, the fourth law). -/
def Obligations.StepKeepsTheBounds : Prop :=
  ∀ s s' : State, s.good → step s = .next s' → s'.good

/-- Every step keeps the law of holds, that a station is HELD exactly while its hold reason set is not empty (R53, R144), and
the law of episodes, that the summary flags agree with the record (R109) and the offset index stays within its bound (R100,
the eleventh law). -/
def Obligations.StepKeepsHoldAndEpisodeLaws : Prop :=
  ∀ s s' : State, s.holdLaw → s.episodeLaw → step s = .next s' → s'.holdLaw ∧ s'.episodeLaw

/-- Every step keeps the ranges of the Gap Monitor and the calibration store (R162, R165, R188), the contour table's IDs 1 to
255, each once (R1), every kerf record in ordinal order (R85), and the slot sum of the Kerf Record Store: its free slots and
the contours' reservations make 4096, and a contour that has not been entered or has ended has no reservation (R86, R88). The
slot sum is the part of R81's law that speaks of reservations; how many of a reservation's slots are allocated is not in it. -/
def Obligations.StepKeepsRangesAndTable : Prop :=
  ∀ s s' : State, step s = .next s' →
    (s.gapInRange → s'.gapInRange) ∧ (s.tableLaw → s'.tableLaw) ∧ (s.kerfLaw → s'.kerfLaw)
      ∧ (s.tableLaw → s.slotLaw → s'.slotLaw)

end Statements
end

