-- ==== Sys2Proof/Laws/State.lean ====
section
/-! SUPPORT. What each named update of State, Works and Station leaves as it was: one lemma per field, true by
computation. -/

namespace Sys2Proof.Machine

@[simp] theorem State.onWorks_pending (s : State) (g : Works → Works) : (s.onWorks g).pending = s.pending := rfl
@[simp] theorem State.onWorks_mgmt (s : State) (g : Works → Works) : (s.onWorks g).mgmt = s.mgmt := rfl
@[simp] theorem State.onWorks_replies (s : State) (g : Works → Works) : (s.onWorks g).replies = s.replies := rfl
@[simp] theorem State.onWorks_lane (s : State) (g : Works → Works) : (s.onWorks g).lane = s.lane := rfl
@[simp] theorem State.onWorks_lastServed (s : State) (g : Works → Works) : (s.onWorks g).lastServed = s.lastServed := rfl
@[simp] theorem State.onWorks_linkErrors (s : State) (g : Works → Works) : (s.onWorks g).linkErrors = s.linkErrors := rfl
@[simp] theorem State.onWorks_gap (s : State) (g : Works → Works) : (s.onWorks g).gap = s.gap := rfl
@[simp] theorem State.onWorks_lines (s : State) (g : Works → Works) : (s.onWorks g).lines = s.lines := rfl
@[simp] theorem State.onWorks_store (s : State) (g : Works → Works) : (s.onWorks g).store = s.store := rfl
@[simp] theorem State.onWorks_works (s : State) (g : Works → Works) : (s.onWorks g).works = g s.works := rfl

@[simp] theorem State.answer_pending (s : State) (f : MgmtFrame) (k : ReplyStatus) (d : ReplyData) : (s.answer f k d).pending = s.pending := rfl
@[simp] theorem State.answer_mgmt (s : State) (f : MgmtFrame) (k : ReplyStatus) (d : ReplyData) : (s.answer f k d).mgmt = s.mgmt := rfl
@[simp] theorem State.answer_lane (s : State) (f : MgmtFrame) (k : ReplyStatus) (d : ReplyData) : (s.answer f k d).lane = s.lane := rfl
@[simp] theorem State.answer_lastServed (s : State) (f : MgmtFrame) (k : ReplyStatus) (d : ReplyData) : (s.answer f k d).lastServed = s.lastServed := rfl
@[simp] theorem State.answer_linkErrors (s : State) (f : MgmtFrame) (k : ReplyStatus) (d : ReplyData) : (s.answer f k d).linkErrors = s.linkErrors := rfl
@[simp] theorem State.answer_works (s : State) (f : MgmtFrame) (k : ReplyStatus) (d : ReplyData) : (s.answer f k d).works = s.works := rfl
@[simp] theorem State.answer_gap (s : State) (f : MgmtFrame) (k : ReplyStatus) (d : ReplyData) : (s.answer f k d).gap = s.gap := rfl
@[simp] theorem State.answer_lines (s : State) (f : MgmtFrame) (k : ReplyStatus) (d : ReplyData) : (s.answer f k d).lines = s.lines := rfl
@[simp] theorem State.answer_store (s : State) (f : MgmtFrame) (k : ReplyStatus) (d : ReplyData) : (s.answer f k d).store = s.store := rfl
@[simp] theorem State.answer_replies (s : State) (f : MgmtFrame) (k : ReplyStatus) (d : ReplyData) :
    (s.answer f k d).replies = s.replies ++ [{ tn := f.tn, unit := f.unit, request := f.request, status := k, data := d }] :=
  rfl

@[simp] theorem State.linkError_pending (s : State) : s.linkError.pending = s.pending := rfl
@[simp] theorem State.linkError_mgmt (s : State) : s.linkError.mgmt = s.mgmt := rfl
@[simp] theorem State.linkError_replies (s : State) : s.linkError.replies = s.replies := rfl
@[simp] theorem State.linkError_lane (s : State) : s.linkError.lane = s.lane := rfl
@[simp] theorem State.linkError_lastServed (s : State) : s.linkError.lastServed = s.lastServed := rfl
@[simp] theorem State.linkError_gap (s : State) : s.linkError.gap = s.gap := rfl
@[simp] theorem State.linkError_lines (s : State) : s.linkError.lines = s.lines := rfl
@[simp] theorem State.linkError_store (s : State) : s.linkError.store = s.store := rfl
@[simp] theorem State.linkError_linkErrors (s : State) : s.linkError.linkErrors = saturate Config.countLimit s.linkErrors := rfl
@[simp] theorem State.linkError_works (s : State) : s.linkError.works = s.works.raise flagLinkError := rfl

@[simp] theorem State.setLine_pending (s : State) (st : St) (k : Line) (v : SenseLine) : (s.setLine st k v).pending = s.pending := rfl
@[simp] theorem State.setLine_mgmt (s : State) (st : St) (k : Line) (v : SenseLine) : (s.setLine st k v).mgmt = s.mgmt := rfl
@[simp] theorem State.setLine_replies (s : State) (st : St) (k : Line) (v : SenseLine) : (s.setLine st k v).replies = s.replies := rfl
@[simp] theorem State.setLine_lane (s : State) (st : St) (k : Line) (v : SenseLine) : (s.setLine st k v).lane = s.lane := rfl
@[simp] theorem State.setLine_lastServed (s : State) (st : St) (k : Line) (v : SenseLine) : (s.setLine st k v).lastServed = s.lastServed := rfl
@[simp] theorem State.setLine_linkErrors (s : State) (st : St) (k : Line) (v : SenseLine) : (s.setLine st k v).linkErrors = s.linkErrors := rfl
@[simp] theorem State.setLine_works (s : State) (st : St) (k : Line) (v : SenseLine) : (s.setLine st k v).works = s.works := rfl
@[simp] theorem State.setLine_gap (s : State) (st : St) (k : Line) (v : SenseLine) : (s.setLine st k v).gap = s.gap := rfl
@[simp] theorem State.setLine_store (s : State) (st : St) (k : Line) (v : SenseLine) : (s.setLine st k v).store = s.store := rfl

@[simp] theorem State.onChannel_pending (s : State) (st : St) (g : GapChannel → GapChannel) : (s.onChannel st g).pending = s.pending := rfl
@[simp] theorem State.onChannel_mgmt (s : State) (st : St) (g : GapChannel → GapChannel) : (s.onChannel st g).mgmt = s.mgmt := rfl
@[simp] theorem State.onChannel_replies (s : State) (st : St) (g : GapChannel → GapChannel) : (s.onChannel st g).replies = s.replies := rfl
@[simp] theorem State.onChannel_lane (s : State) (st : St) (g : GapChannel → GapChannel) : (s.onChannel st g).lane = s.lane := rfl
@[simp] theorem State.onChannel_lastServed (s : State) (st : St) (g : GapChannel → GapChannel) : (s.onChannel st g).lastServed = s.lastServed := rfl
@[simp] theorem State.onChannel_linkErrors (s : State) (st : St) (g : GapChannel → GapChannel) : (s.onChannel st g).linkErrors = s.linkErrors := rfl
@[simp] theorem State.onChannel_works (s : State) (st : St) (g : GapChannel → GapChannel) : (s.onChannel st g).works = s.works := rfl
@[simp] theorem State.onChannel_lines (s : State) (st : St) (g : GapChannel → GapChannel) : (s.onChannel st g).lines = s.lines := rfl
@[simp] theorem State.onChannel_store (s : State) (st : St) (g : GapChannel → GapChannel) : (s.onChannel st g).store = s.store := rfl

@[simp] theorem Works.upd_time (w : Works) (st : St) (g : Station → Station) : (w.upd st g).time = w.time := rfl
@[simp] theorem Works.upd_freeCount (w : Works) (st : St) (g : Station → Station) : (w.upd st g).freeCount = w.freeCount := rfl
@[simp] theorem Works.upd_notices (w : Works) (st : St) (g : Station → Station) : (w.upd st g).notices = w.notices := rfl
@[simp] theorem Works.upd_contours (w : Works) (st : St) (g : Station → Station) : (w.upd st g).contours = w.contours := rfl
@[simp] theorem Works.upd_pool (w : Works) (st : St) (g : Station → Station) : (w.upd st g).pool = w.pool := rfl
@[simp] theorem Works.raise_time (w : Works) (n : Nat) : (w.raise n).time = w.time := rfl
@[simp] theorem Works.raise_freeCount (w : Works) (n : Nat) : (w.raise n).freeCount = w.freeCount := rfl
@[simp] theorem Works.raise_contours (w : Works) (n : Nat) : (w.raise n).contours = w.contours := rfl
@[simp] theorem Works.raise_pool (w : Works) (n : Nat) : (w.raise n).pool = w.pool := rfl
@[simp] theorem Works.raise_stations (w : Works) (n : Nat) : (w.raise n).stations = w.stations := rfl
@[simp] theorem Works.modContour_time (w : Works) (id : Nat) (g : Contour → Contour) : (w.modContour id g).time = w.time := rfl
@[simp] theorem Works.modContour_freeCount (w : Works) (id : Nat) (g : Contour → Contour) : (w.modContour id g).freeCount = w.freeCount := rfl
@[simp] theorem Works.modContour_notices (w : Works) (id : Nat) (g : Contour → Contour) : (w.modContour id g).notices = w.notices := rfl
@[simp] theorem Works.modContour_pool (w : Works) (id : Nat) (g : Contour → Contour) : (w.modContour id g).pool = w.pool := rfl
@[simp] theorem Works.modContour_stations (w : Works) (id : Nat) (g : Contour → Contour) : (w.modContour id g).stations = w.stations := rfl
@[simp] theorem Works.raise_station (w : Works) (n : Nat) (st : St) : (w.raise n).station st = w.station st := rfl
@[simp] theorem Works.modContour_station (w : Works) (id : Nat) (g : Contour → Contour) (st : St) : (w.modContour id g).station st = w.station st := rfl

@[simp] theorem Station.push_adm (x : Station) (b : OpBody) : (x.push b).adm = x.adm := rfl
@[simp] theorem Station.push_tc (x : Station) (b : OpBody) : (x.push b).tc = x.tc := rfl
@[simp] theorem Station.push_state (x : Station) (b : OpBody) : (x.push b).state = x.state := rfl
@[simp] theorem Station.push_activity (x : Station) (b : OpBody) : (x.push b).activity = x.activity := rfl
@[simp] theorem Station.push_wire (x : Station) (b : OpBody) : (x.push b).wire = x.wire := rfl
@[simp] theorem Station.push_wirePlace (x : Station) (b : OpBody) : (x.push b).wirePlace = x.wirePlace := rfl
@[simp] theorem Station.push_holds (x : Station) (b : OpBody) : (x.push b).holds = x.holds := rfl
@[simp] theorem Station.push_current (x : Station) (b : OpBody) : (x.push b).current = x.current := rfl
@[simp] theorem Station.push_stopAwaited (x : Station) (b : OpBody) : (x.push b).stopAwaited = x.stopAwaited := rfl
@[simp] theorem Station.push_returned (x : Station) (b : OpBody) : (x.push b).returned = x.returned := rfl
@[simp] theorem Station.push_closing (x : Station) (b : OpBody) : (x.push b).closing = x.closing := rfl
@[simp] theorem Station.push_catchWait (x : Station) (b : OpBody) : (x.push b).catchWait = x.catchWait := rfl
@[simp] theorem Station.push_deferred (x : Station) (b : OpBody) : (x.push b).deferred = x.deferred := rfl
@[simp] theorem Station.push_completed (x : Station) (b : OpBody) : (x.push b).completed = x.completed := rfl
@[simp] theorem Station.push_failed (x : Station) (b : OpBody) : (x.push b).failed = x.failed := rfl
@[simp] theorem Station.push_lost (x : Station) (b : OpBody) : (x.push b).lost = x.lost := rfl
@[simp] theorem Station.push_recovery (x : Station) (b : OpBody) : (x.push b).recovery = x.recovery := rfl
@[simp] theorem Station.push_pass (x : Station) (b : OpBody) : (x.push b).pass = x.pass := rfl
@[simp] theorem Station.push_breakPending (x : Station) (b : OpBody) : (x.push b).breakPending = x.breakPending := rfl
@[simp] theorem Station.push_failureCutDue (x : Station) (b : OpBody) : (x.push b).failureCutDue = x.failureCutDue := rfl
@[simp] theorem Station.push_directiveMarks (x : Station) (b : OpBody) : (x.push b).directiveMarks = x.directiveMarks := rfl
@[simp] theorem Station.push_endProgram (x : Station) (b : OpBody) : (x.push b).endProgram = x.endProgram := rfl
@[simp] theorem Station.push_teardown (x : Station) (b : OpBody) : (x.push b).teardown = x.teardown := rfl
@[simp] theorem Station.push_linkUp (x : Station) (b : OpBody) : (x.push b).linkUp = x.linkUp := rfl
@[simp] theorem Station.push_reports (x : Station) (b : OpBody) : (x.push b).reports = x.reports := rfl
@[simp] theorem Station.push_kerfRequest (x : Station) (b : OpBody) : (x.push b).kerfRequest = x.kerfRequest := rfl
@[simp] theorem Station.push_pair (x : Station) (b : OpBody) : (x.push b).pair = x.pair ++ [{ issue := x.nextIssue, body := b }] := rfl
@[simp] theorem Station.push_nextIssue (x : Station) (b : OpBody) : (x.push b).nextIssue = x.nextIssue + 1 := rfl
@[simp] theorem Station.push_underrunReported (x : Station) (b : OpBody) : (x.push b).underrunReported = false := rfl

@[simp] theorem Station.setWire_adm (x : Station) (v : Wire) : (x.setWire v).adm = x.adm := rfl
@[simp] theorem Station.setWire_tc (x : Station) (v : Wire) : (x.setWire v).tc = x.tc := rfl
@[simp] theorem Station.setWire_state (x : Station) (v : Wire) : (x.setWire v).state = x.state := rfl
@[simp] theorem Station.setWire_activity (x : Station) (v : Wire) : (x.setWire v).activity = x.activity := rfl
@[simp] theorem Station.setWire_holds (x : Station) (v : Wire) : (x.setWire v).holds = x.holds := rfl
@[simp] theorem Station.setWire_current (x : Station) (v : Wire) : (x.setWire v).current = x.current := rfl
@[simp] theorem Station.setWire_pair (x : Station) (v : Wire) : (x.setWire v).pair = x.pair := rfl
@[simp] theorem Station.setWire_nextIssue (x : Station) (v : Wire) : (x.setWire v).nextIssue = x.nextIssue := rfl
@[simp] theorem Station.setWire_stopAwaited (x : Station) (v : Wire) : (x.setWire v).stopAwaited = x.stopAwaited := rfl
@[simp] theorem Station.setWire_returned (x : Station) (v : Wire) : (x.setWire v).returned = x.returned := rfl
@[simp] theorem Station.setWire_underrunReported (x : Station) (v : Wire) : (x.setWire v).underrunReported = x.underrunReported := rfl
@[simp] theorem Station.setWire_closing (x : Station) (v : Wire) : (x.setWire v).closing = x.closing := rfl
@[simp] theorem Station.setWire_catchWait (x : Station) (v : Wire) : (x.setWire v).catchWait = x.catchWait := rfl
@[simp] theorem Station.setWire_deferred (x : Station) (v : Wire) : (x.setWire v).deferred = x.deferred := rfl
@[simp] theorem Station.setWire_completed (x : Station) (v : Wire) : (x.setWire v).completed = x.completed := rfl
@[simp] theorem Station.setWire_failed (x : Station) (v : Wire) : (x.setWire v).failed = x.failed := rfl
@[simp] theorem Station.setWire_lost (x : Station) (v : Wire) : (x.setWire v).lost = x.lost := rfl
@[simp] theorem Station.setWire_recovery (x : Station) (v : Wire) : (x.setWire v).recovery = x.recovery := rfl
@[simp] theorem Station.setWire_pass (x : Station) (v : Wire) : (x.setWire v).pass = x.pass := rfl
@[simp] theorem Station.setWire_breakPending (x : Station) (v : Wire) : (x.setWire v).breakPending = x.breakPending := rfl
@[simp] theorem Station.setWire_failureCutDue (x : Station) (v : Wire) : (x.setWire v).failureCutDue = x.failureCutDue := rfl
@[simp] theorem Station.setWire_directiveMarks (x : Station) (v : Wire) : (x.setWire v).directiveMarks = x.directiveMarks := rfl
@[simp] theorem Station.setWire_endProgram (x : Station) (v : Wire) : (x.setWire v).endProgram = x.endProgram := rfl
@[simp] theorem Station.setWire_teardown (x : Station) (v : Wire) : (x.setWire v).teardown = x.teardown := rfl
@[simp] theorem Station.setWire_linkUp (x : Station) (v : Wire) : (x.setWire v).linkUp = x.linkUp := rfl
@[simp] theorem Station.setWire_reports (x : Station) (v : Wire) : (x.setWire v).reports = x.reports := rfl
@[simp] theorem Station.setWire_kerfRequest (x : Station) (v : Wire) : (x.setWire v).kerfRequest = x.kerfRequest := rfl
@[simp] theorem Station.setWire_wire (x : Station) (v : Wire) : (x.setWire v).wire = v := rfl

@[simp] theorem Station.toIdle_wire (x : Station) : x.toIdle.wire = x.wire := rfl
@[simp] theorem Station.toIdle_wirePlace (x : Station) : x.toIdle.wirePlace = x.wirePlace := rfl
@[simp] theorem Station.toIdle_holds (x : Station) : x.toIdle.holds = x.holds := rfl
@[simp] theorem Station.toIdle_current (x : Station) : x.toIdle.current = x.current := rfl
@[simp] theorem Station.toIdle_pair (x : Station) : x.toIdle.pair = x.pair := rfl
@[simp] theorem Station.toIdle_nextIssue (x : Station) : x.toIdle.nextIssue = x.nextIssue := rfl
@[simp] theorem Station.toIdle_stopAwaited (x : Station) : x.toIdle.stopAwaited = x.stopAwaited := rfl
@[simp] theorem Station.toIdle_returned (x : Station) : x.toIdle.returned = x.returned := rfl
@[simp] theorem Station.toIdle_underrunReported (x : Station) : x.toIdle.underrunReported = x.underrunReported := rfl
@[simp] theorem Station.toIdle_closing (x : Station) : x.toIdle.closing = x.closing := rfl
@[simp] theorem Station.toIdle_catchWait (x : Station) : x.toIdle.catchWait = x.catchWait := rfl
@[simp] theorem Station.toIdle_deferred (x : Station) : x.toIdle.deferred = x.deferred := rfl
@[simp] theorem Station.toIdle_completed (x : Station) : x.toIdle.completed = x.completed := rfl
@[simp] theorem Station.toIdle_failed (x : Station) : x.toIdle.failed = x.failed := rfl
@[simp] theorem Station.toIdle_lost (x : Station) : x.toIdle.lost = x.lost := rfl
@[simp] theorem Station.toIdle_recovery (x : Station) : x.toIdle.recovery = x.recovery := rfl
@[simp] theorem Station.toIdle_pass (x : Station) : x.toIdle.pass = x.pass := rfl
@[simp] theorem Station.toIdle_breakPending (x : Station) : x.toIdle.breakPending = x.breakPending := rfl
@[simp] theorem Station.toIdle_failureCutDue (x : Station) : x.toIdle.failureCutDue = x.failureCutDue := rfl
@[simp] theorem Station.toIdle_directiveMarks (x : Station) : x.toIdle.directiveMarks = x.directiveMarks := rfl
@[simp] theorem Station.toIdle_linkUp (x : Station) : x.toIdle.linkUp = x.linkUp := rfl
@[simp] theorem Station.toIdle_reports (x : Station) : x.toIdle.reports = x.reports := rfl
@[simp] theorem Station.toIdle_kerfRequest (x : Station) : x.toIdle.kerfRequest = .none := rfl
@[simp] theorem Station.toIdle_state (x : Station) : x.toIdle.state = .idle := rfl
@[simp] theorem Station.toIdle_activity (x : Station) : x.toIdle.activity = .waiting := rfl
@[simp] theorem Station.toIdle_queue (x : Station) : x.toIdle.adm.queue = x.adm.queue := rfl
@[simp] theorem Station.toIdle_program (x : Station) : x.toIdle.adm.program = none := rfl

@[simp] theorem Station.callStop_adm (x : Station) : x.callStop.adm = x.adm := by
  unfold Station.callStop; split <;> rfl
@[simp] theorem Station.callStop_tc (x : Station) : x.callStop.tc = x.tc := by
  unfold Station.callStop; split <;> rfl
@[simp] theorem Station.callStop_state (x : Station) : x.callStop.state = x.state := by
  unfold Station.callStop; split <;> rfl
@[simp] theorem Station.callStop_activity (x : Station) : x.callStop.activity = x.activity := by
  unfold Station.callStop; split <;> rfl
@[simp] theorem Station.callStop_wire (x : Station) : x.callStop.wire = x.wire := by
  unfold Station.callStop; split <;> rfl
@[simp] theorem Station.callStop_wirePlace (x : Station) : x.callStop.wirePlace = x.wirePlace := by
  unfold Station.callStop; split <;> rfl
@[simp] theorem Station.callStop_holds (x : Station) : x.callStop.holds = x.holds := by
  unfold Station.callStop; split <;> rfl
@[simp] theorem Station.callStop_current (x : Station) : x.callStop.current = x.current := by
  unfold Station.callStop; split <;> rfl
@[simp] theorem Station.callStop_pair (x : Station) : x.callStop.pair = x.pair := by
  unfold Station.callStop; split <;> rfl
@[simp] theorem Station.callStop_nextIssue (x : Station) : x.callStop.nextIssue = x.nextIssue := by
  unfold Station.callStop; split <;> rfl
@[simp] theorem Station.callStop_returned (x : Station) : x.callStop.returned = x.returned := by
  unfold Station.callStop; split <;> rfl
@[simp] theorem Station.callStop_underrunReported (x : Station) : x.callStop.underrunReported = x.underrunReported := by
  unfold Station.callStop; split <;> rfl
@[simp] theorem Station.callStop_closing (x : Station) : x.callStop.closing = x.closing := by
  unfold Station.callStop; split <;> rfl
@[simp] theorem Station.callStop_catchWait (x : Station) : x.callStop.catchWait = x.catchWait := by
  unfold Station.callStop; split <;> rfl
@[simp] theorem Station.callStop_deferred (x : Station) : x.callStop.deferred = x.deferred := by
  unfold Station.callStop; split <;> rfl
@[simp] theorem Station.callStop_completed (x : Station) : x.callStop.completed = x.completed := by
  unfold Station.callStop; split <;> rfl
@[simp] theorem Station.callStop_failed (x : Station) : x.callStop.failed = x.failed := by
  unfold Station.callStop; split <;> rfl
@[simp] theorem Station.callStop_lost (x : Station) : x.callStop.lost = x.lost := by
  unfold Station.callStop; split <;> rfl
@[simp] theorem Station.callStop_recovery (x : Station) : x.callStop.recovery = x.recovery := by
  unfold Station.callStop; split <;> rfl
@[simp] theorem Station.callStop_pass (x : Station) : x.callStop.pass = x.pass := by
  unfold Station.callStop; split <;> rfl
@[simp] theorem Station.callStop_breakPending (x : Station) : x.callStop.breakPending = x.breakPending := by
  unfold Station.callStop; split <;> rfl
@[simp] theorem Station.callStop_failureCutDue (x : Station) : x.callStop.failureCutDue = x.failureCutDue := by
  unfold Station.callStop; split <;> rfl
@[simp] theorem Station.callStop_directiveMarks (x : Station) : x.callStop.directiveMarks = x.directiveMarks := by
  unfold Station.callStop; split <;> rfl
@[simp] theorem Station.callStop_endProgram (x : Station) : x.callStop.endProgram = x.endProgram := by
  unfold Station.callStop; split <;> rfl
@[simp] theorem Station.callStop_teardown (x : Station) : x.callStop.teardown = x.teardown := by
  unfold Station.callStop; split <;> rfl
@[simp] theorem Station.callStop_linkUp (x : Station) : x.callStop.linkUp = x.linkUp := by
  unfold Station.callStop; split <;> rfl
@[simp] theorem Station.callStop_reports (x : Station) : x.callStop.reports = x.reports := by
  unfold Station.callStop; split <;> rfl
@[simp] theorem Station.callStop_kerfRequest (x : Station) : x.callStop.kerfRequest = x.kerfRequest := by
  unfold Station.callStop; split <;> rfl

end Sys2Proof.Machine
end

