-- ==== Sys2Proof/Laws/Tables.lean ====
section
/-! SUPPORT. Per-station values and keyed tables: what each operation answers, and the canonical form it keeps. -/

namespace Sys2Proof.Machine

/-! ## Per-station values -/

/-- A change of one station is read back at that station. -/
@[simp] theorem PerStation.get_modify_same {α : Type} (p : PerStation α) (i : St) (f : α → α) :
    (p.modify i f).get i = f (p.get i) := by
  match i with
  | 0 | 1 | 2 | 3 => rfl

/-- A change of one station leaves every other as it was. -/
theorem PerStation.get_modify_other {α : Type} (p : PerStation α) (i j : St) (f : α → α) (h : j ≠ i) :
    (p.modify i f).get j = p.get j := by
  match i, j with
  | 0, 0 | 1, 1 | 2, 2 | 3, 3 => exact absurd rfl h
  | 0, 1 | 0, 2 | 0, 3 | 1, 0 | 1, 2 | 1, 3 | 2, 0 | 2, 1 | 2, 3 | 3, 0 | 3, 1 | 3, 2 => rfl

/-- What was built for each station is read back. -/
@[simp] theorem PerStation.get_ofStations {α : Type} (f : St → α) (i : St) : (PerStation.ofStations f).get i = f i := by
  match i with
  | 0 | 1 | 2 | 3 => rfl

/-- A station of the works after a change of it. -/
@[simp] theorem Works.station_upd_same (w : Works) (st : St) (f : Station → Station) :
    (w.upd st f).station st = f (w.station st) := PerStation.get_modify_same _ _ _

/-- A station of the works after a change of another. -/
theorem Works.station_upd_other (w : Works) (st j : St) (f : Station → Station) (h : j ≠ st) :
    (w.upd st f).station j = w.station j := PerStation.get_modify_other _ _ _ _ h

/-- Two changes of one station are one change. -/
theorem Works.upd_upd (w : Works) (st : St) (f g : Station → Station) :
    (w.upd st f).upd st g = w.upd st fun x => g (f x) := by
  match st with
  | 0 | 1 | 2 | 3 => rfl

/-- A change of a station is known by what it does to that station as it stands. -/
theorem Works.upd_congr (w : Works) (st : St) {f g : Station → Station} (h : f (w.station st) = g (w.station st)) :
    w.upd st f = w.upd st g := by
  obtain ⟨t, n, c, p, s⟩ := w
  match st with
  | 0 | 1 | 2 | 3 =>
    simp only [Works.station, PerStation.get] at h
    simp only [Works.upd, PerStation.modify, h]

/-- A change that leaves the station as it stands changes nothing. -/
theorem Works.upd_self (w : Works) (st : St) {f : Station → Station} (h : f (w.station st) = w.station st) :
    w.upd st f = w := by
  rw [Works.upd_congr w st (g := id) h]
  match st with
  | 0 | 1 | 2 | 3 => rfl

/-! ## Tables -/

/-- What was put under a key is found there. -/
@[simp] theorem tableFind_put_same {α : Type} (t : List (Nat × α)) (k : Nat) (a : α) :
    tableFind (tablePut t k a) k = some a := by
  induction t with
  | nil => simp [tablePut, tableFind]
  | cons p t ih =>
    obtain ⟨j, b⟩ := p
    simp only [tablePut]
    split
    · simp [tableFind]
    · split
      · simp [tableFind]
      · rename_i h1 h2
        simp [tableFind, ih, Ne.symm h2]

/-- A put under one key leaves every other as it was. -/
theorem tableFind_put_other {α : Type} (t : List (Nat × α)) (k i : Nat) (a : α) (h : i ≠ k) :
    tableFind (tablePut t k a) i = tableFind t i := by
  induction t with
  | nil => simp [tablePut, tableFind, Ne.symm h]
  | cons p t ih =>
    obtain ⟨j, b⟩ := p
    simp only [tablePut]
    split
    · simp [tableFind, Ne.symm h]
    · split
      · rename_i h1 h2
        subst h2
        simp [tableFind, Ne.symm h]
      · simp [tableFind, ih]

/-- A change under a key is read back there. -/
@[simp] theorem tableFind_modify_same {α : Type} (t : List (Nat × α)) (k : Nat) (f : α → α) :
    tableFind (tableModify t k f) k = (tableFind t k).map f := by
  induction t with
  | nil => rfl
  | cons p t ih =>
    obtain ⟨j, b⟩ := p
    by_cases h : j = k <;> simp [tableModify, tableFind, h, ih]

/-- A change under one key leaves every other as it was. -/
theorem tableFind_modify_other {α : Type} (t : List (Nat × α)) (k i : Nat) (f : α → α) (h : i ≠ k) :
    tableFind (tableModify t k f) i = tableFind t i := by
  induction t with
  | nil => rfl
  | cons p t ih =>
    obtain ⟨j, b⟩ := p
    by_cases hj : j = k
    · subst hj
      simp [tableModify, tableFind, Ne.symm h]
    · by_cases hi : j = i
      · subst hi
        simp [tableModify, tableFind, hj]
      · simp [tableModify, tableFind, hj, hi, ih]

/-- A record after a change of it. -/
@[simp] theorem Works.contour?_modContour_same (w : Works) (id : Nat) (f : Contour → Contour) :
    (w.modContour id f).contour? id = (w.contour? id).map f := tableFind_modify_same _ _ _

/-- A record after a change of another. -/
theorem Works.contour?_modContour_other (w : Works) (id j : Nat) (f : Contour → Contour) (h : j ≠ id) :
    (w.modContour id f).contour? j = w.contour? j := tableFind_modify_other _ _ _ _ h

/-- The records are untouched by a change of a station. -/
@[simp] theorem Works.contour?_upd (w : Works) (st : St) (f : Station → Station) (id : Nat) :
    (w.upd st f).contour? id = w.contour? id := rfl

/-- The records are untouched by a notice flag. -/
@[simp] theorem Works.contour?_raise (w : Works) (n id : Nat) : (w.raise n).contour? id = w.contour? id := rfl

/-- A change under a key keeps the keys. -/
theorem tableModify_keys {α : Type} (t : List (Nat × α)) (k : Nat) (f : α → α) :
    (tableModify t k f).map Prod.fst = t.map Prod.fst := by
  induction t with
  | nil => rfl
  | cons p t ih =>
    obtain ⟨j, b⟩ := p
    by_cases h : j = k <;> simp [tableModify, h, ih]

/-- The canonical form is a property of the keys. -/
theorem tableSorted_iff {α : Type} (t : List (Nat × α)) :
    tableSorted t = true ↔ (t.map Prod.fst).Pairwise (· < ·) := by
  induction t with
  | nil => simp [tableSorted]
  | cons p t ih =>
    obtain ⟨j, b⟩ := p
    cases t with
    | nil => simp [tableSorted]
    | cons q t =>
      obtain ⟨k, c⟩ := q
      simp only [tableSorted, Bool.and_eq_true, decide_eq_true_eq, ih, List.map_cons, List.pairwise_cons,
        List.mem_cons, forall_eq_or_imp]
      constructor
      · rintro ⟨h1, h2, h3⟩
        exact ⟨⟨h1, fun a ha => Nat.lt_trans h1 (h2 a ha)⟩, h2, h3⟩
      · rintro ⟨⟨h1, _⟩, h2, h3⟩
        exact ⟨h1, h2, h3⟩

/-- A change under a key keeps the canonical form. -/
theorem tableModify_sorted {α : Type} (t : List (Nat × α)) (k : Nat) (f : α → α) (h : tableSorted t = true) :
    tableSorted (tableModify t k f) = true := by
  rw [tableSorted_iff] at *
  rwa [tableModify_keys]

end Sys2Proof.Machine
end

