-- ==== Sys2Proof/Laws/Works.lean ====
section
/-! SUPPORT. Flags, reports, marks, stops and the issue pair: what each shared operation of the works can change. -/

namespace Sys2Proof.Machine

/-! ## Notice flags (R184, R185) -/

/-- A flag that is set stays as it is. -/
theorem Notices.raise_of_set {u : Notices} {n : Nat} (h : u.flags.getLsbD n = true) : u.raise n = u := by
  simp [Notices.raise, h]

/-- Raising a flag leaves the enables. -/
@[simp] theorem Notices.raise_enables (u : Notices) (n : Nat) : (u.raise n).enables = u.enables := by
  unfold Notices.raise
  split <;> rfl

/-! ## Reports (R182) -/

/-- A report that finds room joins the tail with the time stamp of this moment. -/
theorem Works.report_of_room {w : Works} {st : St} (b : ReportBody)
    (h : (w.station st).reports.length < Config.reportQueueSize) :
    w.report st b = w.upd st fun x => { x with reports := x.reports ++ [{ body := b, stamp := w.time }] } := by
  simp [Works.report, h]

/-- A report that finds no room is dropped and counted. -/
theorem Works.report_of_full {w : Works} {st : St} (b : ReportBody)
    (h : ¬(w.station st).reports.length < Config.reportQueueSize) :
    w.report st b
      = (w.upd st fun x => { x with lost := saturate Config.lostLimit x.lost }).raise flagReportLoss := by
  simp [Works.report, h]

@[simp] theorem Works.report_time (w : Works) (st : St) (b : ReportBody) : (w.report st b).time = w.time := by
  unfold Works.report
  split <;> rfl

@[simp] theorem Works.report_contours (w : Works) (st : St) (b : ReportBody) :
    (w.report st b).contours = w.contours := by
  unfold Works.report
  split <;> rfl

@[simp] theorem Works.report_pool (w : Works) (st : St) (b : ReportBody) : (w.report st b).pool = w.pool := by
  unfold Works.report
  split <;> rfl

@[simp] theorem Works.report_contour? (w : Works) (st : St) (b : ReportBody) (id : Nat) :
    (w.report st b).contour? id = w.contour? id := by
  simp [Works.contour?]

/-- A report leaves every other station as it was. -/
theorem Works.report_station_other (w : Works) (st j : St) (b : ReportBody) (h : j ≠ st) :
    (w.report st b).station j = w.station j := by
  unfold Works.report
  split
  · exact Works.station_upd_other _ _ _ _ h
  · exact Works.station_upd_other _ _ _ _ h

/-- A report changes its station in its report queue and its lost-report count only. -/
theorem Works.report_station (w : Works) (st : St) (b : ReportBody) :
    ∃ rs lost, (w.report st b).station st = { w.station st with reports := rs, lost := lost } := by
  unfold Works.report
  split
  · exact ⟨_, _, Works.station_upd_same _ _ _⟩
  · exact ⟨_, _, (Works.raise_station _ _ _).trans (Works.station_upd_same _ _ _)⟩

/-- A report queue never grows past 32 (R182). -/
theorem Works.report_length (w : Works) (st : St) (b : ReportBody)
    (h : (w.station st).reports.length ≤ Config.reportQueueSize) :
    ((w.report st b).station st).reports.length ≤ Config.reportQueueSize := by
  by_cases hr : (w.station st).reports.length < Config.reportQueueSize
  · rw [Works.report_of_room b hr, Works.station_upd_same, List.length_append]
    exact Nat.succ_le_of_lt hr
  · rw [Works.report_of_full b hr]
    simpa using h

/-- A saturating counter stays within its limit. -/
theorem saturate_le (limit n : Nat) : saturate limit n ≤ limit := by
  unfold saturate
  split <;> omega

/-! ## Marks (R48) -/

@[simp] theorem Works.markReport_contours (w : Works) (st : St) (m : MarkRef) (o : MarkOutcome) :
    (w.markReport st m o).contours = w.contours := by
  simp [Works.markReport]

@[simp] theorem Works.markReport_time (w : Works) (st : St) (m : MarkRef) (o : MarkOutcome) :
    (w.markReport st m o).time = w.time := by
  simp [Works.markReport]

@[simp] theorem Works.markReport_pool (w : Works) (st : St) (m : MarkRef) (o : MarkOutcome) :
    (w.markReport st m o).pool = w.pool := by
  simp [Works.markReport]

/-- The handle of a mark that is reported is FREE from that moment, even if the report is dropped (R48). -/
theorem Works.markReport_free (w : Works) (st : St) (m : MarkRef) (o : MarkOutcome) :
    ((w.markReport st m o).station st).adm.handles.getLsbD m.handle.val = false := by
  have key : ∀ (h : Fin 8) (x : BitVec 8), (x &&& ~~~bit8 h).getLsbD h.val = false := by
    decide +revert
  simp only [Works.markReport, Works.station_upd_same, Admission.release]
  exact key _ _

@[simp] theorem Works.markReport?_none (w : Works) (st : St) (o : MarkOutcome) : w.markReport? st none o = w := rfl

@[simp] theorem Works.markReport?_some (w : Works) (st : St) (m : MarkRef) (o : MarkOutcome) :
    w.markReport? st (some m) o = w.markReport st m o := rfl

/-! ## The issue pair (R57) -/

/-- An operation that finds room keeps the fourth law. -/
theorem pairOk_push {x : Station} {b : OpBody} (h : pairOk x.pair) (hr : x.room b = true) :
    pairOk (x.push b).pair := by
  obtain ⟨hl, ht⟩ := h
  unfold Station.room at hr
  by_cases hb : b.isTool = true
  · have he : x.pair = [] := by simpa [hb] using hr
    simp [pairOk, he]
  · have hm : x.pair.length < 2 ∧ ∀ o ∈ x.pair, o.body.isTool = false := by
      simpa [hb, Station.moveRoom] using hr
    refine ⟨by simp; omega, ?_⟩
    intro o ho htool
    simp only [Station.push_pair, List.mem_append, List.mem_singleton] at ho
    rcases ho with ho | ho
    · simp [hm.2 o ho] at htool
    · subst ho
      exact absurd htool hb

/-- An empty pair keeps the fourth law. -/
theorem pairOk_nil : pairOk [] := by simp [pairOk]

/-! ## Settling -/

/-- An IDLE station does nothing of its own accord (R53). -/
theorem Works.act_of_idle {w : Works} {st : St} (h : (w.station st).state = .idle) : w.act st = none := by
  simp [Works.act, h]

end Sys2Proof.Machine
end

