-- ==== Sys2Proof/Laws/Frames.lean ====
section
/-! SUPPORT. The frame of each shared operation of the works: what it leaves unchanged, said once. -/

namespace Sys2Proof.Machine

/-! ## Marks and PROGRESS (R46, R48): admission, report queue and lost count of one station only -/

@[simp] theorem Works.markReport?_time (w : Works) (st : St) (m : Option MarkRef) (o : MarkOutcome) :
    (w.markReport? st m o).time = w.time := by cases m <;> simp

@[simp] theorem Works.markReport?_contours (w : Works) (st : St) (m : Option MarkRef) (o : MarkOutcome) :
    (w.markReport? st m o).contours = w.contours := by cases m <;> simp

@[simp] theorem Works.markReport?_pool (w : Works) (st : St) (m : Option MarkRef) (o : MarkOutcome) :
    (w.markReport? st m o).pool = w.pool := by cases m <;> simp

/-- A MARK report changes its station in its handles, report queue and lost count only. -/
theorem Works.markReport_station (w : Works) (st : St) (m : MarkRef) (o : MarkOutcome) :
    ∃ rs lost, (w.markReport st m o).station st
      = { w.station st with adm := (w.station st).adm.release m.handle, reports := rs, lost := lost } := by
  obtain ⟨rs, lost, h⟩ := Works.report_station w st (.mark m.handle m.seq m.contour o)
  exact ⟨rs, lost, by simp [Works.markReport, h]⟩

/-- A MARK report leaves every other station as it was. -/
theorem Works.markReport_station_other (w : Works) (st j : St) (m : MarkRef) (o : MarkOutcome) (h : j ≠ st) :
    (w.markReport st m o).station j = w.station j := by
  rw [Works.markReport, Works.station_upd_other _ _ _ _ h, Works.report_station_other _ _ _ _ h]

/-- Several MARK reports, one by one. -/
@[simp] theorem Works.markReports_nil (w : Works) (st : St) (o : MarkOutcome) : w.markReports st [] o = w := rfl

@[simp] theorem Works.markReports_cons (w : Works) (st : St) (m : MarkRef) (ms : List MarkRef) (o : MarkOutcome) :
    w.markReports st (m :: ms) o = (w.markReport st m o).markReports st ms o := rfl

@[simp] theorem Works.markReports_time (w : Works) (st : St) (ms : List MarkRef) (o : MarkOutcome) :
    (w.markReports st ms o).time = w.time := by
  induction ms generalizing w with
  | nil => rfl
  | cons m ms ih => simp [ih]

@[simp] theorem Works.markReports_contours (w : Works) (st : St) (ms : List MarkRef) (o : MarkOutcome) :
    (w.markReports st ms o).contours = w.contours := by
  induction ms generalizing w with
  | nil => rfl
  | cons m ms ih => simp [ih]

@[simp] theorem Works.markReports_pool (w : Works) (st : St) (ms : List MarkRef) (o : MarkOutcome) :
    (w.markReports st ms o).pool = w.pool := by
  induction ms generalizing w with
  | nil => rfl
  | cons m ms ih => simp [ih]

/-- Several MARK reports leave every other station as it was. -/
theorem Works.markReports_station_other (w : Works) (st j : St) (ms : List MarkRef) (o : MarkOutcome) (h : j ≠ st) :
    (w.markReports st ms o).station j = w.station j := by
  induction ms generalizing w with
  | nil => rfl
  | cons m ms ih => rw [Works.markReports_cons, ih, Works.markReport_station_other _ _ _ _ _ h]

/-- Several MARK reports change their station in its handles, report queue and lost count only. -/
theorem Works.markReports_station (w : Works) (st : St) (ms : List MarkRef) (o : MarkOutcome) :
    ∃ hs rs lost, (w.markReports st ms o).station st
      = { w.station st with
          adm := { (w.station st).adm with handles := hs }, reports := rs, lost := lost } := by
  induction ms generalizing w with
  | nil => exact ⟨_, _, _, rfl⟩
  | cons m ms ih =>
    obtain ⟨rs, lost, h⟩ := Works.markReport_station w st m o
    obtain ⟨hs, rs', lost', h'⟩ := ih (w.markReport st m o)
    exact ⟨hs, rs', lost', by simp [h', h, Admission.release]⟩

/-- A PROGRESS update changes its station in its report queue and lost count only (R46). -/
theorem Works.progressUpdate_station (w : Works) (st : St) :
    ∃ rs lost, (w.progressUpdate st).station st = { w.station st with reports := rs, lost := lost } := by
  unfold Works.progressUpdate
  split
  · exact ⟨_, _, rfl⟩
  · split
    · exact ⟨_, _, Works.station_upd_same _ _ _⟩
    · exact Works.report_station _ _ _

/-- A PROGRESS update leaves every other station as it was. -/
theorem Works.progressUpdate_station_other (w : Works) (st j : St) (h : j ≠ st) :
    (w.progressUpdate st).station j = w.station j := by
  unfold Works.progressUpdate
  split
  · rfl
  · split
    · exact Works.station_upd_other _ _ _ _ h
    · exact Works.report_station_other _ _ _ _ h

@[simp] theorem Works.progressUpdate_time (w : Works) (st : St) : (w.progressUpdate st).time = w.time := by
  unfold Works.progressUpdate
  split
  · rfl
  · split <;> simp

@[simp] theorem Works.progressUpdate_contours (w : Works) (st : St) :
    (w.progressUpdate st).contours = w.contours := by
  unfold Works.progressUpdate
  split
  · rfl
  · split <;> simp

@[simp] theorem Works.progressUpdate_pool (w : Works) (st : St) : (w.progressUpdate st).pool = w.pool := by
  unfold Works.progressUpdate
  split
  · rfl
  · split <;> simp

/-- The head leaving the queue changes its station in the queue, consumed through, report queue and lost count only. -/
theorem Works.consumeHead_station {w : Works} {st : St} {e : QEntry} {rest : List QEntry}
    (h : (w.station st).adm.queue = e :: rest) :
    ∃ rs lost, (w.consumeHead st).station st
      = { w.station st with
          adm := { (w.station st).adm with queue := rest }.setConsumed e.seq, reports := rs, lost := lost } := by
  obtain ⟨rs, lost, hp⟩ := Works.progressUpdate_station
    (w.upd st fun x => { x with adm := { x.adm with queue := rest }.setConsumed e.seq }) st
  refine ⟨rs, lost, ?_⟩
  simp only [Works.consumeHead, h]
  rw [hp, Works.station_upd_same]

/-- The head leaving the queue leaves every other station as it was. -/
theorem Works.consumeHead_station_other (w : Works) (st j : St) (h : j ≠ st) :
    (w.consumeHead st).station j = w.station j := by
  unfold Works.consumeHead
  split
  · rfl
  · rw [Works.progressUpdate_station_other _ _ _ h, Works.station_upd_other _ _ _ _ h]

@[simp] theorem Works.consumeHead_time (w : Works) (st : St) : (w.consumeHead st).time = w.time := by
  unfold Works.consumeHead
  split <;> simp

@[simp] theorem Works.consumeHead_contours (w : Works) (st : St) : (w.consumeHead st).contours = w.contours := by
  unfold Works.consumeHead
  split <;> simp

@[simp] theorem Works.consumeHead_pool (w : Works) (st : St) : (w.consumeHead st).pool = w.pool := by
  unfold Works.consumeHead
  split <;> simp

/-! ## Holds (R144 to R146) -/

/-- A station that is neither ACTIVE nor HELD takes no hold reason. -/
theorem Works.addHolds_of_not_working {w : Works} {st : St} (rs : Holds) (code : Option Byte) (cause : Option Cause)
    (h : (w.station st).working = false) : w.addHolds st rs code cause = w := by
  simp [Works.addHolds, h]

/-- Reasons all in the set already change nothing. -/
theorem Works.addHolds_of_old {w : Works} {st : St} {rs : Holds} (code : Option Byte) (cause : Option Cause)
    (h : rs.without (w.station st).holds = Holds.none) : w.addHolds st rs code cause = w := by
  simp [Works.addHolds, h]

@[simp] theorem Works.addHolds_time (w : Works) (st : St) (rs : Holds) (code : Option Byte) (cause : Option Cause) :
    (w.addHolds st rs code cause).time = w.time := by
  simp only [Works.addHolds]
  split <;> simp

@[simp] theorem Works.addHolds_contours (w : Works) (st : St) (rs : Holds) (code : Option Byte) (cause : Option Cause) :
    (w.addHolds st rs code cause).contours = w.contours := by
  simp only [Works.addHolds]
  split <;> simp

@[simp] theorem Works.addHolds_pool (w : Works) (st : St) (rs : Holds) (code : Option Byte) (cause : Option Cause) :
    (w.addHolds st rs code cause).pool = w.pool := by
  simp only [Works.addHolds]
  split <;> simp

/-- A hold leaves every other station as it was. -/
theorem Works.addHolds_station_other (w : Works) (st j : St) (rs : Holds) (code : Option Byte) (cause : Option Cause)
    (h : j ≠ st) : (w.addHolds st rs code cause).station j = w.station j := by
  simp only [Works.addHolds]
  split
  · rw [Works.station_upd_other _ _ _ _ h, Works.raise_station, Works.report_station_other _ _ _ _ h,
      Works.station_upd_other _ _ _ _ h]
  · rfl

/-- A STOP changes only whether one is awaited. -/
theorem Station.callStop_eq (x : Station) : ∃ b, x.callStop = { x with stopAwaited := b } := by
  unfold Station.callStop
  split
  · exact ⟨_, rfl⟩
  · exact ⟨x.stopAwaited, rfl⟩

/-- A hold changes its station in its hold set, station state, STOP awaited, report queue and lost count only. -/
theorem Works.addHolds_station (w : Works) (st : St) (rs : Holds) (code : Option Byte) (cause : Option Cause) :
    ∃ hs state stop reports lost, (w.addHolds st rs code cause).station st
      = { w.station st with
          holds := hs, state := state, stopAwaited := stop, reports := reports, lost := lost } := by
  simp only [Works.addHolds]
  split
  · rw [Works.station_upd_same, Works.raise_station]
    obtain ⟨reports, lost, hr⟩ := Works.report_station
      (w.upd st fun x => { x with
        holds := (w.station st).holds.union (rs.without (w.station st).holds), state := .held }) st
      (.held (rs.without (w.station st).holds) ((w.station st).holds.union (rs.without (w.station st).holds))
        (w.station st).activity (w.station st).current
        (if (rs.without (w.station st).holds).driveFault then code else none)
        (if (rs.without (w.station st).holds).contourFailed then cause else none))
    rw [hr, Works.station_upd_same]
    obtain ⟨b, hb⟩ := Station.callStop_eq
      { w.station st with
        holds := (w.station st).holds.union (rs.without (w.station st).holds), state := .held,
        reports := reports, lost := lost }
    exact ⟨_, _, b, reports, lost, hb⟩
  · exact ⟨_, _, _, _, _, rfl⟩

/-- Reasons leaving the set leave every other station as it was. -/
theorem Works.removeHolds_station_other (w : Works) (st j : St) (rs : Holds) (h : j ≠ st) :
    (w.removeHolds st rs).station j = w.station j := Works.station_upd_other _ _ _ _ h

/-- The clearing of the last reason changes its station in its state, report queue and lost count only (R146). -/
theorem Works.resumeIfClear_station (w : Works) (st : St) (why : Clearing) :
    ∃ state rs lost, (w.resumeIfClear st why).station st
      = { w.station st with state := state, reports := rs, lost := lost } := by
  simp only [Works.resumeIfClear]
  split
  · obtain ⟨rs, lost, h⟩ := Works.report_station (w.upd st fun x => { x with state := .active }) st
      (.resumed why (w.station st).activity (w.station st).current)
    exact ⟨.active, rs, lost, by rw [h, Works.station_upd_same]⟩
  · exact ⟨_, _, _, rfl⟩

/-- The clearing of the last reason leaves every other station as it was. -/
theorem Works.resumeIfClear_station_other (w : Works) (st j : St) (why : Clearing) (h : j ≠ st) :
    (w.resumeIfClear st why).station j = w.station j := by
  simp only [Works.resumeIfClear]
  split
  · rw [Works.report_station_other _ _ _ _ h, Works.station_upd_other _ _ _ _ h]
  · rfl

/-! ## Reservation and release (R86 to R90) -/

@[simp] theorem Works.grant_time (w : Works) (st : St) (id need : Nat) : (w.grant st id need).time = w.time := rfl

@[simp] theorem Works.grant_station (w : Works) (st j : St) (id need : Nat) :
    (w.grant st id need).station j = w.station j := rfl

/-- A grant to a contour that holds nothing takes the need from the free slots (R86). -/
theorem Works.grant_of_none {w : Works} {id : Nat} (st : St) (need : Nat) (h : w.reservedFor id = 0) :
    w.grant st id need = { w.modContour id fun c => { c with prog := { c.prog with reservation := need } } with
      pool := { free := w.pool.free - need, waiting := w.pool.waiting.set st none, lastGranted := st } } := by
  simp [Works.grant, h]

/-- One round of the arbiter grants some waiting station whose need fits, and sets its activity (R89, R90). -/
theorem Works.arbiterRound_some {w w' : Works} (h : w.arbiterRound = some w') :
    ∃ g r, w.pool.waiting.get g = some r ∧ r.need ≤ w.pool.free ∧ w.isEntering r.contour = true
      ∧ w' = (w.grant g r.contour r.need).upd g fun x => { x with activity := .entering } := by
  obtain ⟨g, _, hg⟩ := List.exists_of_findSome?_eq_some h
  cases hw : w.pool.waiting.get g with
  | none => simp [hw] at hg
  | some r =>
    simp only [hw] at hg
    split at hg
    · rename_i hn
      exact ⟨g, r, hw, hn.1, hn.2, (Option.some.inj hg).symm⟩
    · cases hg

/-- What every grant of the arbiter keeps, its rounds keep. -/
theorem Works.arbiterRounds_keeps {P : Works → Prop}
    (h : ∀ w g r, P w → w.pool.waiting.get g = some r → r.need ≤ w.pool.free → w.isEntering r.contour = true →
      P ((w.grant g r.contour r.need).upd g fun x => { x with activity := .entering }))
    (n : Nat) (w : Works) (hw : P w) : P (Works.arbiterRounds n w) := by
  induction n generalizing w with
  | zero => exact hw
  | succ n ih =>
    simp only [Works.arbiterRounds]
    split
    · exact hw
    · rename_i w' hr
      obtain ⟨g, r, hg, hn, he, rfl⟩ := Works.arbiterRound_some hr
      exact ih _ (h w g r hw hg hn he)

/-- A station nobody grants is left by the arbiter as it was: it is not in the waiting set. -/
theorem Works.arbiterRounds_station (n : Nat) (w : Works) (j : St) :
    ∃ a, (Works.arbiterRounds n w).station j = { w.station j with activity := a } := by
  refine Works.arbiterRounds_keeps (P := fun v => ∃ a, v.station j = { w.station j with activity := a }) ?_ n w
    ⟨_, rfl⟩
  rintro v g r ⟨a, ha⟩ _ _ _
  by_cases hj : j = g
  · subst hj
    exact ⟨.entering, by rw [Works.station_upd_same, Works.grant_station, ha]⟩
  · exact ⟨a, by rw [Works.station_upd_other _ _ _ _ hj, Works.grant_station, ha]⟩

@[simp] theorem Works.arbiterRounds_time (n : Nat) (w : Works) : (Works.arbiterRounds n w).time = w.time :=
  Works.arbiterRounds_keeps (P := fun v => v.time = w.time) (fun _ _ _ h _ _ _ => h) n w rfl

/-- A contour with nothing reserved has nothing to release (R88). -/
theorem Works.release_of_none {w : Works} {id : Nat} {c : Contour} (h : w.contour? id = some c)
    (hr : c.prog.reservation = 0) : w.release id = w := by
  simp [Works.release, h, hr]

@[simp] theorem Works.release_time (w : Works) (id : Nat) : (w.release id).time = w.time := by
  simp only [Works.release]
  split
  · rfl
  · split <;> simp

/-- Several MARK reports change any station in its handles, report queue and lost count only. -/
theorem Works.markReports_station_any (w : Works) (st j : St) (ms : List MarkRef) (o : MarkOutcome) :
    ∃ hs rs lost, (w.markReports st ms o).station j
      = { w.station j with adm := { (w.station j).adm with handles := hs }, reports := rs, lost := lost } := by
  by_cases hj : j = st
  · subst hj
    exact Works.markReports_station w j ms o
  · exact ⟨(w.station j).adm.handles, (w.station j).reports, (w.station j).lost,
      Works.markReports_station_other w st j ms o hj⟩

/-- A release changes a station in its handles, activity, report queue and lost count only (R48, R88, R90). -/
theorem Works.release_station (w : Works) (id : Nat) (j : St) :
    ∃ hs a rs lost, (w.release id).station j
      = { w.station j with
          adm := { (w.station j).adm with handles := hs }, activity := a, reports := rs, lost := lost } := by
  have keep : ∃ hs a rs lost, w.station j
      = { w.station j with
          adm := { (w.station j).adm with handles := hs }, activity := a, reports := rs, lost := lost } :=
    ⟨(w.station j).adm.handles, (w.station j).activity, (w.station j).reports, (w.station j).lost, rfl⟩
  simp only [Works.release]
  split
  · exact keep
  · rename_i c _
    split
    · exact keep
    · obtain ⟨hs, rs, lost, hm⟩ := Works.markReports_station_any w c.cfg.station j
        (c.kerf.filterMap (KerfEntry.mark id)) .discarded
      refine (Works.arbiterRounds_station 4 _ j).elim fun a ha => ⟨hs, a, rs, lost, ha.trans ?_⟩
      exact congrArg (fun x : Station => { x with activity := a }) hm

/-- A reservation request leaves every other station as it was (R86). -/
theorem Works.requestReservation_station_other (w : Works) (st j : St) (id need : Nat) (h : j ≠ st) :
    (w.requestReservation st id need).station j = w.station j := by
  unfold Works.requestReservation
  split
  · rfl
  · rw [Works.raise_station, Works.report_station_other _ _ _ _ h, Works.station_upd_other _ _ _ _ h]
    rfl

@[simp] theorem Works.requestReservation_time (w : Works) (st : St) (id need : Nat) :
    (w.requestReservation st id need).time = w.time := by
  unfold Works.requestReservation
  split <;> simp

end Sys2Proof.Machine
end

