-- ==== Sys2Proof/Laws/Ends.lean ====
section
/-! SUPPORT. What each shared operation that ends something does, said once: the end of an entry, of a stopped operation and
of a pair, the settlement of a break, and the failure of a contour, as the relations of Safety.lean. -/

namespace Sys2Proof.Machine

/-! ## Two changes of one contour -/

theorem tableModify_modify {α : Type} (t : List (Nat × α)) (k : Nat) (f g : α → α) :
    tableModify (tableModify t k f) k g = tableModify t k fun a => g (f a) := by
  induction t with
  | nil => rfl
  | cons p t ih =>
    obtain ⟨j, a⟩ := p
    by_cases h : j = k <;> simp [tableModify, h, ih]

theorem tableModify_congr {α : Type} (t : List (Nat × α)) (k : Nat) {f g : α → α}
    (h : ∀ a, tableFind t k = some a → f a = g a) : tableModify t k f = tableModify t k g := by
  induction t with
  | nil => rfl
  | cons p t ih =>
    obtain ⟨j, a⟩ := p
    by_cases hj : j = k
    · simp [tableModify, hj, h a (by simp [tableFind, hj])]
    · simp [tableModify, hj, ih fun b hb => h b (by simpa [tableFind, hj] using hb)]

/-- Two changes of one contour are one change. -/
theorem Works.modContour_modContour (w : Works) (id : Nat) (f g : Contour → Contour) :
    (w.modContour id f).modContour id g = w.modContour id fun c => g (f c) := by
  simp [Works.modContour, tableModify_modify]

/-- Two changes of a contour that agree on its record are the same change. -/
theorem Works.modContour_congr {w : Works} {id : Nat} {f g : Contour → Contour}
    (h : ∀ c, w.contour? id = some c → f c = g c) : w.modContour id f = w.modContour id g := by
  simp [Works.modContour, tableModify_congr w.contours id h]

/-! ## The pass's contour -/

/-- The contour's work is a tail's exactly while the station's pass works on it. -/
theorem Works.tailWork_isSome (w : Works) (st : St) (id : Nat) :
    (w.tailWork st id).isSome = (w.station st).inPass id := by
  unfold Works.tailWork Station.inPass
  cases (w.station st).pass with
  | none => rfl
  | some r =>
    obtain ⟨trigger, work⟩ := r
    cases work with
    | none => rfl
    | some p => by_cases hp : p.contour = id <;> simp [Option.filter, hp]

/-! ## Closing -/

/-- Beginning a closing (R72, R137). -/
theorem Works.beginClosing_begins {w : Works} {st : St} {id : Nat} {c : Contour} (h : w.contour? id = some c) :
    w.ClosingBegins st id c (w.beginClosing st id) := by
  have ht := Works.tailWork_isSome w st id
  unfold Works.ClosingBegins
  simp only [Works.beginClosing, h]
  have hs : (c.plan.confirmRequired == Confirm.plain) = decide (c.plan.confirmRequired = .plain) := by
    cases c.plan.confirmRequired <;> rfl
  rcases Option.eq_none_or_eq_some (w.tailWork st id) with hw | ⟨p, hw⟩
  · have hi : (w.station st).inPass id = false := by rw [← ht, hw]; rfl
    simp only [hw, hi, Works.upd_upd, hs]
    rfl
  · have hi : (w.station st).inPass id = true := by rw [← ht, hw]; rfl
    simp only [hw, hi, Works.modPass, Works.upd_upd, hs]
    rfl

/-! ## Entries -/

/-- A main-pass entry becomes CUT (R68). -/
theorem Works.entryCut_counts {w : Works} {st : St} {id k : Nat} {c : Contour} {e : KerfEntry}
    (h : w.contour? id = some c) (he : c.entry? k = some e) :
    w.EntryCounts st id k c e false (w.entryCut st id k) := by
  have hm : (c.entry? k).bind (KerfEntry.mark id) = e.handle.map fun h => { handle := h, seq := e.seq, contour := id } := by
    rw [he]
    rfl
  simp only [Works.EntryCounts, Works.entryCut, h, hm, Bool.false_eq_true, if_false]
  constructor
  · intro hk
    rw [if_pos hk]
    have hc := Works.beginClosing_begins (st := st) (id := id)
      (w := (w.modContour id fun c =>
        { c.modEntry k (fun e => { e with state := .cut, handle := none }) with
          prog := { c.prog with cursor := c.prog.cursor + 1 } }).markReport? st
            (e.handle.map fun h => { handle := h, seq := e.seq, contour := id }) .done)
      (c := { c.modEntry k (fun e => { e with state := .cut, handle := none }) with
          prog := { c.prog with cursor := c.prog.cursor + 1 } })
      (by simp only [Works.contour?, Works.markReport?_contours]
          have := Works.contour?_modContour_same w id fun c =>
            { c.modEntry k (fun e => { e with state := .cut, handle := none }) with
              prog := { c.prog with cursor := c.prog.cursor + 1 } }
          rw [Works.contour?] at this
          rw [this, h]
          rfl)
    exact hc
  · intro hk
    rw [if_neg hk]
    rfl

theorem Contour.tailAllCut_iff (c : Contour) :
    c.tailAllCut = true ↔ ∀ f ∈ c.kerf, f.state ≠ .tail ∧ f.state ≠ .tailIssued := by
  simp only [Contour.tailAllCut, List.all_eq_true, Bool.or_eq_true, Bool.not_eq_true', beq_iff_eq]
  refine forall_congr' fun f => forall_congr' fun _ => ?_
  cases f.state <;> simp [KerfState.isTail]

/-- A tail entry becomes TAIL_CUT (R136). -/
theorem Works.tailCut_counts {w : Works} {st : St} {id k : Nat} {c : Contour} {e : KerfEntry}
    (h : w.contour? id = some c) (he : c.entry? k = some e) :
    w.EntryCounts st id k c e true (w.tailCut st id k) := by
  have hm : (c.entry? k).bind (KerfEntry.mark id) = e.handle.map fun h => { handle := h, seq := e.seq, contour := id } := by
    rw [he]
    rfl
  let c1 := c.modEntry k fun e => { e with state := .tailCut, handle := none }
  have hv : (w.modContour id fun _ => c1)
      = w.modContour id fun c =>
        { c with
          kerf := c.kerf.map fun f => if f.ordinal = k then { f with state := .tailCut, handle := none } else f } := by
    refine Works.modContour_congr fun d hd => ?_
    rw [h] at hd
    obtain rfl := Option.some.inj hd
    rfl
  have hl : c1.tailAllCut = true ↔ ∀ f ∈ c.kerf, f.ordinal ≠ k → f.state ≠ .tail ∧ f.state ≠ .tailIssued := by
    rw [Contour.tailAllCut_iff]
    simp only [c1, Contour.modEntry, List.mem_map, forall_exists_index, and_imp, forall_apply_eq_imp_iff₂]
    refine forall_congr' fun f => forall_congr' fun _ => ?_
    by_cases hf : f.ordinal = k <;> simp [hf]
  simp only [Works.EntryCounts, Works.tailCut, h, hm, if_true]
  rw [show c.modEntry k (fun e => { e with state := .tailCut, handle := none }) = c1 from rfl]
  constructor
  · intro hk
    have hk' := hl.mpr hk
    rw [if_pos hk']
    have hc := Works.beginClosing_begins (st := st) (id := id)
      (w := (w.modContour id fun _ => c1).markReport? st
            (e.handle.map fun h => { handle := h, seq := e.seq, contour := id }) .done)
      (c := c1)
      (by simp only [Works.contour?, Works.markReport?_contours]
          have := Works.contour?_modContour_same w id fun _ => c1
          rw [Works.contour?] at this
          rw [this, h]
          rfl)
    rw [hv] at hc ⊢
    exact hc
  · intro hk
    have hk' : ¬c1.tailAllCut = true := fun ht => hk (hl.mp ht)
    rw [if_neg hk', hv]

theorem Contour.entry?_map (c : Contour) (k : Nat) (f : KerfEntry → KerfEntry) (hf : ∀ e, (f e).ordinal = e.ordinal) :
    Contour.entry? { c with kerf := c.kerf.map f } k = (c.entry? k).map f := by
  simp only [Contour.entry?]
  induction c.kerf with
  | nil => rfl
  | cons e l ih =>
    rw [List.map_cons, List.find?_cons, List.find?_cons, hf]
    split
    · rfl
    · exact ih

theorem Contour.entry?_ordinal {c : Contour} {k : Nat} {e : KerfEntry} (h : c.entry? k = some e) : e.ordinal = k := by
  have := List.find?_some h
  simpa using this

/-- A move ended short of a DONE (R60, R84). -/
theorem Works.entryReturns_returns (w : Works) (st : St) (id k p : Nat) (tail : Bool) :
    w.EntryReturns st id k p tail (w.entryReturns st id k p tail) := by
  simp only [Works.EntryReturns, Works.entryReturns]
  refine ⟨fun h => ?_, fun c e h he => ?_⟩
  · have h0 : ((w.contour? id).bind fun c => c.entry? k) = none := by
      cases hc : w.contour? id with
      | none => rfl
      | some c => exact h c hc
    rw [h0]
  · have h0 : ((w.contour? id).bind fun c => c.entry? k) = some e := by rw [h]; exact he
    simp only [h0]
    have hk : (w.modContour id fun c => c.modEntry k fun e => { e with progress := e.kept p })
        = w.modContour id fun c =>
          { c with
            kerf := c.kerf.map fun f =>
              if f.ordinal = k then { f with progress := min (max p f.progress) f.seg.length } else f } := rfl
    refine ⟨fun hlt => ?_, fun hle => ?_⟩
    · have hne : ¬e.kept p = e.seg.length := by
        unfold KerfEntry.kept
        omega
      rw [if_neg hne, Works.modContour_modContour]
      refine Works.modContour_congr fun d _ => ?_
      simp only [Contour.modEntry, List.map_map]
      congr 1
      refine List.map_congr_left fun f _ => ?_
      by_cases hf : f.ordinal = k <;> simp [hf, KerfEntry.kept]
    · have heq : e.kept p = e.seg.length := by
        unfold KerfEntry.kept
        omega
      rw [if_pos heq, hk]
      have hc' := Works.contour?_modContour_same w id fun c =>
          { c with
            kerf := c.kerf.map fun f =>
              if f.ordinal = k then { f with progress := min (max p f.progress) f.seg.length } else f }
      rw [h] at hc'
      have he' : Contour.entry? { c with
            kerf := c.kerf.map fun f =>
              if f.ordinal = k then { f with progress := min (max p f.progress) f.seg.length } else f } k
          = some { e with progress := e.seg.length } := by
        rw [Contour.entry?_map _ _ _ fun e => by split <;> rfl, he]
        have : min (max p e.progress) e.seg.length = e.seg.length := by omega
        simp [Contour.entry?_ordinal he, this]
      cases tail
      · exact Works.entryCut_counts hc' he'
      · exact Works.tailCut_counts hc' he'

/-! ## Operations -/

/-- A THREAD ended by a STOP's answer or a FAULT (R105, R106, R108). -/
theorem Works.threadEnds_ends (w : Works) (st : St) : w.ThreadEnds st (w.threadEnds st) := by
  simp only [Works.ThreadEnds, Works.threadEnds]
  refine ⟨fun h => ?_, fun h he => ?_, fun e h he => ?_⟩
  · rw [if_neg h, Works.modEpisode, Works.modThreader, Works.modThreader, Works.upd_upd]
  · rw [if_pos h]
    simp only [Works.endEpisode, Works.modThreader, Works.station_upd_same, he, Works.upd_upd]
    rfl
  · rw [if_pos h]
    simp only [Works.endEpisode, Works.modThreader, Works.station_upd_same, he, Works.upd_upd]
    rfl

/-- A stopped operation, by its kind. -/
theorem Works.opEnds_ends (w : Works) (st : St) (body : OpBody) (p : Nat) :
    w.OpEnds st body p (w.opEnds st body p) := by
  have hret : ∀ b q, w.opReturns st b q = if (w.station st).state = .aborting then w
      else w.upd st fun x => { x with returned := x.returned ++ [{ body := b, progress := q }] } := by
    intro b q
    unfold Works.opReturns
    split
    · rename_i h
      exact Works.upd_self _ _ (by rw [if_pos h])
    · rename_i h
      exact Works.upd_congr _ _ (by rw [if_neg h])
  cases body with
  | move m d off seg work =>
    cases work with
    | mainEntry id k => exact Works.entryReturns_returns w st id k p false
    | tailEntry id k => exact Works.entryReturns_returns w st id k p true
    | traverse id k => exact hret _ _
    | entryTravel => exact hret _ _
    | passTravel => exact hret _ _
    | recoveryTravel => exact hret _ _
    | directive m => exact hret _ _
  | dwell ms m => exact hret _ _
  | thread off => exact Works.threadEnds_ends w st
  | confirm =>
    simp only [Works.OpEnds, Works.opEnds, Works.confirmFaults]
    refine ⟨fun he => by rw [he], fun e he => ⟨fun hl => ?_, fun hl ha => ?_, fun hl ha => ?_⟩⟩
    · rw [he]
      dsimp only
      rw [if_neg (by simp [hl])]
      exact Works.threadEnds_ends w st
    all_goals
      have hv : w.takeLockout st = w.upd st fun x =>
          { x with
            pair := []
            tc := { x.tc with
              state := .idle, episode := some { e with attempts := e.attempts + 1, reason := some .lockout } } } := by
        simp only [Works.takeLockout, Works.toolEnds, Works.modEpisode, Works.modThreader, Works.upd_upd]
        exact Works.upd_congr _ _ (by simp [he])
      rw [he]
      dsimp only
      rw [if_pos hl]
    · rw [if_neg ha, hv]
    · rw [if_pos ha, hv]
      exact Works.threadEnds_ends _ st
  | abandon =>
    simp only [Works.OpEnds, Works.opEnds, Works.abandonFaults]
    refine ⟨fun h => ?_, fun h => ?_⟩
    · rw [if_pos h]
      exact Works.threadEnds_ends w st
    · rw [if_neg h, Works.modThreader, Works.upd_upd]
  | wireCut purpose =>
    simp only [Works.OpEnds, Works.opEnds, Works.wireCutFaults]
    refine ⟨fun h => ?_, fun h ha => ?_⟩
    · by_cases ha : (w.station st).state = .aborting
      · have hp : purpose ≠ .teardown := h.resolve_right fun hn => hn ha
        simp [ha, hp]
      · rw [if_neg ha, hret]
    · rw [if_pos ha, if_pos h]
      rfl

/-- The operations of a pair, one after another. -/
theorem Works.foldl_opEnds (st : St) (ops : List Op) (w : Works) :
    Works.OpsEnd st ops 0 w (ops.foldl (fun w o => w.opEnds st o.body 0) w) := by
  induction ops generalizing w with
  | nil => rfl
  | cons o ops ih => exact ⟨_, Works.opEnds_ends w st o.body 0, ih _⟩

/-- Every outstanding operation ends (R60). -/
theorem Works.pairEnds_ends (w : Works) (st : St) (p : Nat) :
    Works.OpsEnd st (w.station st).pair p (w.upd st fun x => { x with pair := [], stopAwaited := false })
      (w.pairEnds st p) := by
  unfold Works.pairEnds
  cases h : (w.station st).pair with
  | nil => rfl
  | cons o ops => exact ⟨_, Works.opEnds_ends _ st o.body p, Works.foldl_opEnds st ops _⟩

/-! ## Failures and breaks -/

theorem takeWhile_of_append {mine rest : List QEntry} {id : Nat} (hm : ∀ e ∈ mine, e.contour = id)
    (hr : ∀ e, rest.head? = some e → e.contour ≠ id) :
    ((mine ++ rest).takeWhile fun e => e.contour == id) = mine := by
  induction mine with
  | nil =>
    cases rest with
    | nil => rfl
    | cons e rest =>
      have := hr e rfl
      simp [this]
  | cons e mine ih =>
    have he := hm e (by simp)
    simp [he]
    exact ih fun f hf => hm f (by simp [hf])

/-- A release leaves the record of its contour but for the kerf record and the reservation, unless the contour waits in
ENTERING (R88, R90). -/
theorem Works.release_contour? {w : Works} {id : Nat} {c : Contour} (h : w.contour? id = some c)
    (hs : c.state ≠ .entering) :
    (w.release id).contour? id = some
      { c with
        kerf := if c.prog.reservation = 0 then c.kerf else [], prog := { c.prog with reservation := 0 } } := by
  by_cases hr : c.prog.reservation = 0
  · rw [Works.release_of_none h hr, h, if_pos hr, ← hr]
  · simp only [Works.release, h, hr, if_false]
    refine Works.arbiterRounds_keeps
      (P := fun v => v.contour? id = some { c with kerf := [], prog := { c.prog with reservation := 0 } }) ?_ 4 _ ?_
    · intro v g r hv _ _ he
      by_cases hi : r.contour = id
      · rw [hi, Works.isEntering, hv] at he
        simp [hs] at he
      · rw [Works.contour?_upd]
        change (v.modContour r.contour _).contour? id = _
        rw [Works.contour?_modContour_other _ _ _ _ (Ne.symm hi), hv]
    · have hm : (w.markReports c.cfg.station (c.kerf.filterMap (KerfEntry.mark id)) .discarded).contour? id = some c := by
        rw [Works.contour?, Works.markReports_contours, ← Works.contour?, h]
      have h2 := Works.contour?_modContour_same
        (w.markReports c.cfg.station (c.kerf.filterMap (KerfEntry.mark id)) .discarded) id fun c =>
          { c with kerf := [], prog := { c.prog with reservation := 0 } }
      rw [hm] at h2
      exact h2

/-- The end of a contour under SKIP (R153). -/
theorem Works.failSkip_ends {w : Works} {st : St} {id : Nat} {c : Contour} (cause : Cause) (h : w.contour? id = some c) :
    w.EndsFailed st id c cause (w.failSkip st id cause) := by
  let v := (w.modContour id fun c =>
      { c with state := .failed, prog := { c.prog with outcome := some cause, pendingFailure := none } }).upd st fun x =>
        { x with failed := saturate Config.countLimit x.failed }
  have hvq : (v.station st).adm.queue = (w.station st).adm.queue := by
    simp [v]
  have hvc : v.contours = (w.modContour id fun c =>
      { c with state := .failed, prog := { c.prog with outcome := some cause, pendingFailure := none } }).contours := rfl
  refine ⟨v.discardContour st id, fun mine rest hq hm hr => ⟨fun h0 => ?_, fun e he => ?_⟩, ?_⟩
  · subst h0
    have ht := takeWhile_of_append hm hr
    rw [← hq, ← hvq] at ht
    simp only [Works.discardContour, ht]
    rfl
  · have ht := takeWhile_of_append hm hr
    rw [← hq, ← hvq] at ht
    have hd : (w.station st).adm.queue.drop mine.length = rest := by rw [hq, List.drop_left]
    simp only [Works.discardContour, ht, he]
    congr 1
    refine Works.upd_congr _ _ ?_
    obtain ⟨hs, rs, lost, hms⟩ := Works.markReports_station v st (mine.filterMap QEntry.mark) .discarded
    have hmq : ((v.markReports st (mine.filterMap QEntry.mark) .discarded).station st).adm.queue.drop mine.length = rest := by
      rw [hms, ← hd, ← hvq]
    rw [hmq]
    rfl
  · have hdc : (v.discardContour st id).contours = v.contours := by
      unfold Works.discardContour
      dsimp only
      split
      · rfl
      · simp [Works.upd]
    have hcv : (v.discardContour st id).contour? id = some
        { c with state := .failed, prog := { c.prog with outcome := some cause, pendingFailure := none } } := by
      rw [Works.contour?, hdc, hvc, ← Works.contour?, Works.contour?_modContour_same, h]
      rfl
    have hrel := Works.release_contour? hcv (by simp)
    simp only [Works.failSkip]
    rw [show (w.modContour id fun c =>
      { c with state := .failed, prog := { c.prog with outcome := some cause, pendingFailure := none } }).upd st (fun x =>
        { x with failed := saturate Config.countLimit x.failed }) = v from rfl]
    simp only [Works.reportContourEnd, Works.contour?_upd, hrel]
    rfl

/-- A contour failure (R153, R154). -/
theorem Works.failContour_fails {w : Works} {st : St} {id : Nat} {c : Contour} (cause : Cause) (code : Option Byte)
    (hi : (w.station st).current = some id) (h : w.contour? id = some c) :
    w.Fails st id c cause code (w.failContour st cause code) := by
  have hc : w.current? st = some (id, c) := by simp [Works.current?, hi, h]
  refine ⟨fun hp => ?_, fun hp => ?_⟩
  · simp only [Works.failContour, hc, hp]
    exact Works.failSkip_ends (w := w.raise flagContourFailed) cause h
  · simp only [Works.failContour, hc, hp, Works.failHalt]
    congr 1
    cases code <;> rfl

/-- The settlement of a charged break (R116, R118). -/
theorem Works.settleBreak_settles (w : Works) (st : St) (position : Option (Nat × Nat)) (code : Option Byte) :
    w.BreakSettles st position code (w.settleBreak st position code) := by
  let w1 := w.upd st fun x =>
    { x with
      breakPending := false, wirePlace := .nowhere, returned := x.returned.filter fun r => !r.body.isBrokenWork }
  have hcur : w1.current? st = w.current? st := by simp [w1, Works.current?]
  refine ⟨fun hn => ?_, fun id c hi h => ?_⟩
  · have h0 : w1.current? st = none := by
      rw [hcur]
      cases hi : (w.station st).current with
      | none => simp [Works.current?, hi]
      | some id => simp [Works.current?, hi, hn id hi]
    simp only [Works.settleBreak]
    rw [show (w.upd st fun x =>
      { x with
        breakPending := false, wirePlace := .nowhere
        returned := x.returned.filter fun r => !r.body.isBrokenWork }) = w1 from rfl, h0]
  · have h1 : w1.current? st = some (id, c) := by
      rw [hcur]
      simp [Works.current?, hi, h]
    have ht : w1.tailWork st id = w.tailWork st id := by simp [w1, Works.tailWork]
    have hb : w1.boundary st id c = w.boundary st id c := by simp [Works.boundary, ht]
    have hp : (if (w1.tailWork st id).isSome = true then Pass.tail else Pass.main)
        = if (w.station st).inPass id = true then Pass.tail else Pass.main := by rw [ht, Works.tailWork_isSome]
    simp only [Works.settleBreak]
    rw [show (w.upd st fun x =>
      { x with
        breakPending := false, wirePlace := .nowhere
        returned := x.returned.filter fun r => !r.body.isBrokenWork }) = w1 from rfl, h1]
    simp only [hb, hp]
    generalize (if (w.station st).inPass id = true then Pass.tail else Pass.main) = pass
    refine ⟨fun hle => ?_, fun hlt ha => ?_⟩
    · rw [if_neg (by
        simp only [decide_eq_true_eq, not_and]
        intro hlt
        exact fun hs => hle.elim (fun hle => absurd hlt (Nat.not_lt.mpr hle)) hs)]
      rfl
    · rw [if_pos ⟨by simpa using hlt, ha⟩]
      refine Works.failContour_fails _ code ?_ ?_
      · rw [Works.station_upd_same, Works.raise_station]
        obtain ⟨rs, lost, hr⟩ := Works.report_station
          (w1.modContour id fun c' => { c' with prog := { c'.prog with breaks := c.prog.breaks + 1 } }) st
          (.wireBreak id pass (w.station st).wirePlace (position.getD (w.boundary st id c))
            (w.boundary st id c) (c.prog.breaks + 1) (decide (c.cfg.breakLimit < c.prog.breaks + 1)))
        rw [hr]
        simpa [w1, Works.modContour, Works.station, Works.upd] using hi
      · rw [Works.contour?_upd, Works.contour?_raise, Works.report_contour?]
        have h2 := Works.contour?_modContour_same w1 id fun c' =>
          { c' with prog := { c'.prog with breaks := c.prog.breaks + 1 } }
        rw [show w1.contour? id = some c from h] at h2
        exact h2

/-! ## Recoveries, episodes and teardowns -/

/-- The activity of the current contour's work (R54). -/
theorem Works.workActivity_returnsTo {w : Works} {st : St} {id : Nat} {c : Contour} (hi : (w.station st).current = some id)
    (h : w.contour? id = some c) : w.workActivity st = c.returnsTo (w.station st).pass.isSome := by
  simp only [Works.workActivity, Works.current?, hi, h, Option.map_some, Contour.returnsTo]
  split
  · rfl
  · cases c.state <;> rfl

/-- The end of a recovery (R123, R125). -/
theorem Works.endRecovery_ends {w : Works} {st : St} {id : Nat} {c : Contour} (hi : (w.station st).current = some id)
    (h : w.contour? id = some c) : w.RecoveryEnds st c (w.endRecovery st) := by
  let w1 := w.upd st fun x => { x with recovery := none }
  have h1 : (w1.station st).current = some id := by simpa [w1] using hi
  have ha : w1.workActivity st = c.returnsTo (w.station st).pass.isSome := by
    rw [Works.workActivity_returnsTo h1 h]
    simp [w1]
  let w2 := w1.upd st fun x => { x with activity := w1.workActivity st }
  have h2 : w2.current? st = some (id, c) := by
    simp only [Works.current?, show (w2.station st).current = some id by simpa [w2] using h1,
      show w2.contour? id = some c from h]
    rfl
  unfold Works.RecoveryEnds Works.endRecovery
  dsimp only
  rw [show ((w.upd st fun x => { x with recovery := none }).upd st fun x =>
    { x with activity := (w.upd st fun x => { x with recovery := none }).workActivity st }) = w2 from rfl, h2]
  dsimp only [w2, w1] at ha ⊢
  rw [Works.upd_upd, Works.upd_upd]
  refine Works.upd_congr _ _ ?_
  rw [ha]

/-- What follows an episode's success (R66, R103, R123, R124, R134). -/
theorem Works.afterSuccess_follows (w : Works) (st : St) (kind : EpisodeKind) :
    w.SuccessFollows st kind (w.afterSuccess st kind) := by
  let v := w.upd st fun x =>
    { x with wire := .threaded, wirePlace := if kind = .startHole then .startHole else .inCut }
  have hA : w.afterSuccess st kind =
      match v.current? st with
      | none => v
      | some (id, c) =>
        match (v.station st).recovery with
        | some _ =>
          if kind = .inKerf ∨ v.traverseList st id c = [] then v.endRecovery st
          else v.modRecovery st fun r => { r with step := .traverse, next := some 0 }
        | none =>
          match v.tailWork st id with
          | some _ => v.modPass st fun p => { p with step := .approach, next := 0 }
          | none => (v.modContour id fun c => c.setState .cutting).upd st fun x => { x with activity := .cutting } := by
    cases kind <;> simp [Works.afterSuccess, v] <;> rfl
  have hcur : (v.station st).current = (w.station st).current := by simp [v]
  have hrec : (v.station st).recovery = (w.station st).recovery := by simp [v]
  have ht : ∀ id, v.tailWork st id = w.tailWork st id := by simp [v, Works.tailWork]
  refine ⟨fun hn => ?_, fun id c hi h => ?_⟩
  · have h0 : v.current? st = none := by
      simp only [Works.current?, hcur]
      cases hi : (w.station st).current with
      | none => rfl
      | some id => simp [show v.contour? id = none from hn id hi]
    rw [hA, h0]
  · have h1 : v.current? st = some (id, c) := by simp [Works.current?, hcur, hi, show v.contour? id = some c from h]
    have hl : v.traverseList st id c = w.traverseList st id c := by simp only [Works.traverseList, ht]
    rw [hA, h1]
    dsimp only
    rw [hrec, hl, ht]
    refine ⟨fun hr hk => ?_, fun r hr hk hne => ?_, fun hr hp => ?_, fun hr hp => ?_⟩
    · obtain ⟨r, hr⟩ := Option.ne_none_iff_exists'.mp hr
      have he := Works.endRecovery_ends (w := v) (hcur.trans hi) h
      rw [hr]
      dsimp only
      rw [if_pos hk]
      exact he
    · subst hk
      rw [hr]
      dsimp only
      rw [if_neg (by simp [hne])]
      exact Works.upd_congr _ _ (by simp [hrec, hr])
    all_goals
      rw [← Works.tailWork_isSome] at hp
      rw [hr]
      dsimp only
    · obtain ⟨p, hp⟩ := Option.isSome_iff_exists.mp hp
      rw [hp]
      rfl
    · have hn : w.tailWork st id = none := by simpa using hp
      rw [hn]
      rfl

/-- The end of an episode that has nothing outstanding (R108). -/
theorem Works.abortIdleEpisode_ends (w : Works) (st : St) : w.IdleEpisodeEnds st (w.abortIdleEpisode st) := by
  refine ⟨fun h => ?_, fun e he hs => ?_⟩
  · unfold Works.abortIdleEpisode
    split
    · rfl
    · rename_i e he
      rw [if_neg (h.resolve_left (by simp [he]))]
  · have hw : (w.modThreader st fun t =>
        { t with state := .idle, ok := ThreadOutcome.aborted == .threaded, fail := ThreadOutcome.aborted != .threaded
                 episode := none })
        = w.upd st fun x => { x with tc := { x.tc with ok := false, fail := true, episode := none } } :=
      Works.upd_congr _ _ (by rw [← hs]; rfl)
    simp only [Works.abortIdleEpisode, Works.endEpisode, he, hs, if_true, hw]
    cases hc : e.clearanceDue
    · exact (Works.upd_self _ _ rfl).symm
    · exact Works.upd_congr _ _ rfl

/-- A teardown begins (R157, R158). -/
theorem Works.startTeardown_begins (w : Works) (st : St) (cause : TeardownCause) :
    w.TeardownBegins st cause (w.startTeardown st cause) :=
  ⟨_, Works.abortIdleEpisode_ends _ st, Works.upd_congr _ _ (by
    unfold Station.callStop
    split
    · rename_i h
      rw [h, Bool.or_true]
    · rename_i h
      rw [Bool.not_eq_true] at h
      rw [h, Bool.or_false])⟩

/-! ## What the end of an operation leaves alone -/

theorem Works.report_breakPending (w : Works) (st : St) (b : ReportBody) :
    ((w.report st b).station st).breakPending = (w.station st).breakPending := by
  obtain ⟨rs, lost, h⟩ := Works.report_station w st b
  rw [h]

theorem Works.markReport?_breakPending (w : Works) (st : St) (m : Option MarkRef) (o : MarkOutcome) :
    ((w.markReport? st m o).station st).breakPending = (w.station st).breakPending := by
  cases m with
  | none => rfl
  | some m =>
    simp only [Works.markReport?, Works.markReport, Works.station_upd_same]
    exact Works.report_breakPending w st _

theorem Works.beginClosing_breakPending (w : Works) (st : St) (id : Nat) :
    ((w.beginClosing st id).station st).breakPending = (w.station st).breakPending := by
  unfold Works.beginClosing
  split
  · rfl
  · dsimp only
    split <;> simp [Works.modPass]

/-- The end of an operation of the pair neither charges a break nor settles one (R115). -/
theorem Works.opEnds_breakPending (w : Works) (st : St) (body : OpBody) (p : Nat) :
    ((w.opEnds st body p).station st).breakPending = (w.station st).breakPending := by
  have hret : ∀ b q, ((w.opReturns st b q).station st).breakPending = (w.station st).breakPending := by
    intro b q
    simp only [Works.opReturns, Works.station_upd_same]
    split <;> rfl
  have hcut : ∀ (v : Works) id k, ((v.entryCut st id k).station st).breakPending = (v.station st).breakPending := by
    intro v id k
    unfold Works.entryCut
    split
    · rfl
    · dsimp only
      split <;> simp [Works.beginClosing_breakPending, Works.markReport?_breakPending]
  have htail : ∀ (v : Works) id k, ((v.tailCut st id k).station st).breakPending = (v.station st).breakPending := by
    intro v id k
    unfold Works.tailCut
    split
    · rfl
    · dsimp only
      split <;> simp [Works.beginClosing_breakPending, Works.markReport?_breakPending]
  have hentry : ∀ id k q tail, ((w.entryReturns st id k q tail).station st).breakPending = (w.station st).breakPending := by
    intro id k q tail
    unfold Works.entryReturns
    split
    · rfl
    · dsimp only
      split
      · split <;> simp [hcut, htail]
      · rfl
  have hend : ∀ v : Works, ((v.endEpisode st .aborted).station st).breakPending = (v.station st).breakPending := by
    intro v
    unfold Works.endEpisode
    split
    · rfl
    · simp [Works.report_breakPending, Works.modThreader]
  have hthread : ∀ v : Works, ((v.threadEnds st).station st).breakPending = (v.station st).breakPending := by
    intro v
    unfold Works.threadEnds
    dsimp only
    split
    · simp [Station.setWire, hend, Works.modThreader]
    · simp [Works.modEpisode, Works.modThreader]
  have hlock : ((w.takeLockout st).station st).breakPending = (w.station st).breakPending := by
    simp [Works.takeLockout, Works.toolEnds, Works.modEpisode, Works.modThreader]
  cases body with
  | move m d off seg work =>
    cases work with
    | mainEntry id k => exact hentry id k p false
    | tailEntry id k => exact hentry id k p true
    | traverse id k => exact hret _ _
    | entryTravel => exact hret _ _
    | passTravel => exact hret _ _
    | recoveryTravel => exact hret _ _
    | directive m => exact hret _ _
  | dwell ms m => exact hret _ _
  | thread off => exact hthread w
  | confirm =>
    simp only [Works.opEnds, Works.confirmFaults]
    split
    · rfl
    · split
      · split
        · rw [hthread, hlock]
        · exact hlock
      · exact hthread w
  | abandon =>
    simp only [Works.opEnds, Works.abandonFaults]
    split
    · exact hthread w
    · simp [Works.modThreader]
  | wireCut purpose =>
    simp only [Works.opEnds, Works.wireCutFaults]
    split
    · split
      · simp [Station.setWire]
      · rfl
    · exact hret _ _

/-- The end of every operation of the pair leaves a charged break charged (R60, R115). -/
theorem Works.pairEnds_breakPending (w : Works) (st : St) (p : Nat) :
    ((w.pairEnds st p).station st).breakPending = (w.station st).breakPending := by
  have hf : ∀ (ops : List Op) (v : Works),
      ((ops.foldl (fun w o => w.opEnds st o.body 0) v).station st).breakPending = (v.station st).breakPending := by
    intro ops
    induction ops with
    | nil => exact fun _ => rfl
    | cons o ops ih => exact fun v => (ih _).trans (Works.opEnds_breakPending v st o.body 0)
  unfold Works.pairEnds
  dsimp only
  split
  · simp
  · rw [hf, Works.opEnds_breakPending]
    simp

end Sys2Proof.Machine
end

