-- ==== Sys2Proof/Laws/Link.lean ====
section
/-! SUPPORT. The link: the oldest frame of a unit, what serving a request answers, what the upstream arbiter changes. -/

namespace Sys2Proof.Machine

/-! ## Taking a request -/

/-- The oldest frame with a property, from the place where it stands. -/
theorem takeOldest_append (p : MgmtFrame → Bool) (before after : List MgmtFrame) (f : MgmtFrame)
    (hb : ∀ g ∈ before, p g = false) (hf : p f = true) :
    takeOldest p (before ++ f :: after) = some (f, before ++ after) := by
  induction before with
  | nil => simp [takeOldest, hf]
  | cons g rest ih =>
    have hg : p g = false := hb g (by simp)
    have hr : ∀ x ∈ rest, p x = false := fun x hx => hb x (by simp [hx])
    simp [takeOldest, hg, ih hr]

/-- No frame has the property: nothing is taken. -/
theorem takeOldest_none (p : MgmtFrame → Bool) (l : List MgmtFrame) (h : ∀ g ∈ l, p g = false) :
    takeOldest p l = none := by
  induction l with
  | nil => rfl
  | cons g rest ih =>
    have hr : ∀ x ∈ rest, p x = false := fun x hx => h x (by simp [hx])
    simp [takeOldest, h g (by simp), ih hr]

/-- What is taken has the property, and the rest is shorter by one frame. -/
theorem takeOldest_some (p : MgmtFrame → Bool) (l : List MgmtFrame) (f : MgmtFrame) (rest : List MgmtFrame)
    (h : takeOldest p l = some (f, rest)) : p f = true ∧ f ∈ l ∧ l.length = rest.length + 1 := by
  induction l generalizing rest with
  | nil => simp [takeOldest] at h
  | cons g t ih =>
    simp only [takeOldest] at h
    split at h
    · rename_i hg
      simp only [Option.some.injEq, Prod.mk.injEq] at h
      obtain ⟨rfl, rfl⟩ := h
      simp [hg]
    · cases hr : takeOldest p t with
      | none => simp [hr] at h
      | some q =>
        simp only [hr, Option.map_some, Option.some.injEq, Prod.mk.injEq] at h
        obtain ⟨rfl, rfl⟩ := h
        obtain ⟨h1, h2, h3⟩ := ih q.2 (by rw [hr])
        exact ⟨h1, by simp [h2], by simp [h3]⟩

/-- The oldest frame of a unit, as the statements say it and as the dispatch finds it. -/
theorem State.oldestOf_of_oldest {s : State} {u : MgmtUnit} {f : MgmtFrame} {rest : List MgmtFrame}
    (h : s.oldest u f rest) : s.oldestOf u = some (f, rest) := by
  obtain ⟨before, after, hm, hb, hf, rfl⟩ := h
  unfold State.oldestOf
  rw [hm]
  exact takeOldest_append _ _ _ _ (fun g hg => by simpa using hb g hg) (by simpa using hf)

/-- A well-formed request that is its unit's oldest frame is answered by the unit's own rule (R179). -/
theorem State.serve_of_offers {s : State} {u : MgmtUnit} {code : Byte} {len : Nat} {a : Authority} {f : MgmtFrame}
    {rest : List MgmtFrame} (h : s.offers u code len a f rest) (rule : Authority → MgmtFrame → State → State) :
    s.serve u code len rule = rule a f { s with mgmt := rest } := by
  obtain ⟨ho, hc, hr, ha, hl⟩ := h
  have hroom : s.replyRoom = true := by simp [State.replyRoom, hr]
  simp [State.serve, State.oldestOf_of_oldest ho, hc, hroom, State.dispatch, ha, hl]

/-- A unit with no frame of its own takes nothing. -/
theorem State.serve_of_none {s : State} {u : MgmtUnit} (h : s.oldestOf u = none) (code : Byte) (len : Nat)
    (rule : Authority → MgmtFrame → State → State) : s.serve u code len rule = s := by
  simp [State.serve, h]

/-! ## The upstream arbiter -/

/-- While a frame is being sent the arbiter changes nothing (R183). -/
theorem State.upstream_of_lane {s : State} {x : UpFrame} (h : s.lane = some x) : s.upstream = s := by
  simp [State.upstream, h]

/-- On a free lane the oldest built reply is sent (R183). -/
theorem State.upstream_of_reply {s : State} {r : Reply} {rest : List Reply} (hl : s.lane = none)
    (hr : s.replies = r :: rest) : s.upstream = { s with lane := some (.reply r), replies := rest } := by
  simp [State.upstream, hl, hr]

/-- Starting a report leaves everything but the lane, the last station served and that station's report queue. -/
theorem State.sendReport_frame (s : State) :
    s.sendReport.pending = s.pending ∧ s.sendReport.mgmt = s.mgmt ∧ s.sendReport.replies = s.replies
      ∧ s.sendReport.linkErrors = s.linkErrors ∧ s.sendReport.gap = s.gap ∧ s.sendReport.lines = s.lines
      ∧ s.sendReport.store = s.store ∧ s.sendReport.works.freeCount = s.works.freeCount
      ∧ s.sendReport.works.time = s.works.time ∧ s.sendReport.works.notices = s.works.notices
      ∧ s.sendReport.works.contours = s.works.contours ∧ s.sendReport.works.pool = s.works.pool
      ∧ ∀ st, ∃ rs, s.sendReport.works.station st = { s.works.station st with reports := rs } := by
  unfold State.sendReport
  dsimp only
  split
  · exact ⟨rfl, rfl, rfl, rfl, rfl, rfl, rfl, rfl, rfl, rfl, rfl, rfl, fun st => ⟨_, rfl⟩⟩
  · rename_i g r rest _
    refine ⟨rfl, rfl, rfl, rfl, rfl, rfl, rfl, rfl, rfl, rfl, rfl, rfl, fun st => ?_⟩
    by_cases h : st = g
    · subst h
      exact ⟨rest, by simp⟩
    · exact ⟨(s.works.station st).reports, by rw [Works.station_upd_other _ _ _ _ h]⟩

/-- Everything the upstream arbiter can change: the lane, the built replies, the last station served, the pending notice
and the report queues (R183, R185). -/
theorem State.upstream_frame (s : State) :
    s.upstream.pending = s.pending ∧ s.upstream.mgmt = s.mgmt
      ∧ s.upstream.linkErrors = s.linkErrors ∧ s.upstream.gap = s.gap ∧ s.upstream.lines = s.lines
      ∧ s.upstream.store = s.store ∧ s.upstream.works.freeCount = s.works.freeCount
      ∧ s.upstream.works.time = s.works.time
      ∧ s.upstream.works.notices.flags = s.works.notices.flags
      ∧ s.upstream.works.notices.enables = s.works.notices.enables
      ∧ s.upstream.works.contours = s.works.contours ∧ s.upstream.works.pool = s.works.pool
      ∧ ∀ st, ∃ rs, s.upstream.works.station st = { s.works.station st with reports := rs } := by
  have frame : ∀ t : State, t.sendReport.works.notices.flags = t.works.notices.flags
      ∧ t.sendReport.works.notices.enables = t.works.notices.enables := fun t => by
    rw [(State.sendReport_frame t).2.2.2.2.2.2.2.2.2.1]
    exact ⟨rfl, rfl⟩
  unfold State.upstream
  split
  · exact ⟨rfl, rfl, rfl, rfl, rfl, rfl, rfl, rfl, rfl, rfl, rfl, rfl, fun st => ⟨_, rfl⟩⟩
  · split
    · exact ⟨rfl, rfl, rfl, rfl, rfl, rfl, rfl, rfl, rfl, rfl, rfl, rfl, fun st => ⟨_, rfl⟩⟩
    · split
      · unfold State.sendNotice
        dsimp only
        split
        · obtain ⟨h1, h2, _, h4, h5, h6, h7, h8, h9, _, h11, h12, h13⟩ := State.sendReport_frame
            (s.onWorks fun w => { w with notices := { s.works.notices with pending := false } })
          obtain ⟨f1, f2⟩ := frame (s.onWorks fun w => { w with notices := { s.works.notices with pending := false } })
          exact ⟨h1, h2, h4, h5, h6, h7, h8, h9, f1, f2, h11, h12, h13⟩
        · exact ⟨rfl, rfl, rfl, rfl, rfl, rfl, rfl, rfl, rfl, rfl, rfl, rfl, fun st => ⟨_, rfl⟩⟩
      · obtain ⟨h1, h2, _, h4, h5, h6, h7, h8, h9, _, h11, h12, h13⟩ := State.sendReport_frame s
        obtain ⟨f1, f2⟩ := frame s
        exact ⟨h1, h2, h4, h5, h6, h7, h8, h9, f1, f2, h11, h12, h13⟩

end Sys2Proof.Machine
end

