-- ==== Sys2Proof/Laws/Settle.lean ====
section
/-! SUPPORT. Every action of a station lowers `Works.actionsLeft`, so that `Works.settle` takes actions until no station
has one left, whatever the state it starts from. -/

namespace Sys2Proof.Machine

/-! ## What the weight of a station looks at -/

/-- The part of a station that `Station.weight` reads. -/
structure Gauge where
  phase     : StationState
  queue     : List Nat
  deferred  : Nat
  inPass    : Bool
  current   : Option Nat
  recovery  : Nat
  pair      : Nat
  wired     : Bool
  episode   : Bool
  cutDue    : Bool
  asking    : Bool

/-- ACTIVE and HELD weigh the same. -/
def StationState.phase : StationState → StationState
  | .held => .active
  | s => s

def Station.gauge (x : Station) : Gauge where
  phase := x.state.phase
  queue := x.adm.queue.map QEntry.contour
  deferred := x.deferred.length
  inPass := x.pass.isSome
  current := x.current
  recovery := x.recoveryWeight
  pair := x.pair.length
  wired := x.wire == .threaded || x.wire == .broken
  episode := x.tc.episode.isSome
  cutDue := x.failureCutDue
  asking := x.kerfRequest != .none

def Gauge.listWeight (g : Gauge) : Nat :=
  if g.inPass then (if g.deferred = 0 then 1 else 24 * g.deferred - 10) else 24 * g.deferred

def Gauge.currentWeight (g : Gauge) (free : Nat → Bool) : Nat :=
  match g.current with
  | none => 4
  | some id => (if g.queue.head? = some id then 1 else 6) + (if free id then 1 else 0)

def Gauge.weight (g : Gauge) (free : Nat → Bool) : Nat :=
  match g.phase with
  | .idle => 0
  | .aborting => 8 + (if g.pair = 0 ∧ g.wired = true then 1 else 0)
  | .active | .held =>
    16 + 32 * g.queue.length + g.listWeight + g.currentWeight free + g.recovery + (2 - g.pair)
      + (if g.episode then 0 else 1) + (if g.cutDue then 1 else 0) + (if g.asking then 1 else 0)

theorem Station.weight_gauge (x : Station) (free : Nat → Bool) : x.weight free = x.gauge.weight free := by
  have hl : x.listWeight = x.gauge.listWeight := by
    simp only [Station.listWeight, Gauge.listWeight, Station.gauge]
    rcases Option.eq_none_or_eq_some x.pass with hp | ⟨r, hp⟩ <;> simp [hp]
  have hc : x.currentWeight free = x.gauge.currentWeight free := by
    simp only [Station.currentWeight, Gauge.currentWeight, Station.gauge, List.head?_map]
    rcases Option.eq_none_or_eq_some x.current with hc | ⟨id, hc⟩
    · simp [hc]
    · rcases Option.eq_none_or_eq_some x.adm.queue.head? with hq | ⟨e, hq⟩ <;> simp [hc, hq]
  have he : (if x.tc.episode = none then 1 else 0) = if x.gauge.episode then 0 else 1 := by
    simp only [Station.gauge]
    rcases Option.eq_none_or_eq_some x.tc.episode with hp | ⟨r, hp⟩ <;> simp [hp]
  have hk : (if x.kerfRequest = .none then 0 else 1) = if x.gauge.asking then 1 else 0 := by
    simp [Station.gauge]
  unfold Station.weight Gauge.weight
  rw [hl, hc, he, hk]
  cases hs : x.state <;> simp [Station.gauge, StationState.phase, hs, List.length_eq_zero_iff]

/-! ## Relations between two works -/

def Works.gauge (w : Works) (j : St) : Gauge := (w.station j).gauge

/-- Nothing that weights look at has changed. -/
def Works.Quiet (w w' : Works) : Prop := (∀ j, w'.gauge j = w.gauge j) ∧ w'.unfailed = w.unfailed

/-- Station `st` only has changed, as far as weights look. -/
def Works.Beside (st : St) (w w' : Works) : Prop := ∀ j ≠ st, w'.gauge j = w.gauge j

/-- No contour has become free of a pending failure. -/
def Works.Kept (w w' : Works) : Prop := ∀ id, w'.unfailed id = true → w.unfailed id = true

theorem Works.Quiet.refl (w : Works) : w.Quiet w := ⟨fun _ => rfl, rfl⟩

theorem Works.Quiet.trans {a b c : Works} (h : a.Quiet b) (h' : b.Quiet c) : a.Quiet c :=
  ⟨fun j => (h'.1 j).trans (h.1 j), h'.2.trans h.2⟩

theorem Works.Quiet.beside {w w' : Works} (h : w.Quiet w') (st : St) : w.Beside st w' := fun j _ => h.1 j

theorem Works.Quiet.kept {w w' : Works} (h : w.Quiet w') : w.Kept w' := fun id hi => by rwa [h.2] at hi

theorem Works.Beside.refl (st : St) (w : Works) : w.Beside st w := fun _ _ => rfl

theorem Works.Beside.trans {st : St} {a b c : Works} (h : a.Beside st b) (h' : b.Beside st c) : a.Beside st c :=
  fun j hj => (h' j hj).trans (h j hj)

theorem Works.Kept.refl (w : Works) : w.Kept w := fun _ h => h

theorem Works.Kept.trans {a b c : Works} (h : a.Kept b) (h' : b.Kept c) : a.Kept c := fun id hi => h id (h' id hi)

/-! ## The plain updates -/

@[simp] theorem Works.gauge_upd_same (w : Works) (st : St) (f : Station → Station) :
    (w.upd st f).gauge st = (f (w.station st)).gauge := by simp [Works.gauge]

theorem Works.beside_upd (w : Works) (st : St) (f : Station → Station) : w.Beside st (w.upd st f) :=
  fun j hj => by rw [Works.gauge, Works.station_upd_other _ _ _ _ hj, Works.gauge]

@[simp] theorem Works.unfailed_upd (w : Works) (st : St) (f : Station → Station) :
    (w.upd st f).unfailed = w.unfailed := rfl

/-- A change of a station that weights do not look at. -/
theorem Works.quiet_upd {w : Works} {st : St} {f : Station → Station}
    (h : (f (w.station st)).gauge = (w.station st).gauge) : w.Quiet (w.upd st f) := by
  refine ⟨fun j => ?_, rfl⟩
  by_cases hj : j = st
  · subst hj
    simp [h, Works.gauge]
  · exact Works.beside_upd w st f j hj

theorem Works.quiet_raise (w : Works) (n : Nat) : w.Quiet (w.raise n) := ⟨fun _ => rfl, rfl⟩

theorem Works.Quiet.pool {w v : Works} (h : w.Quiet v) (p : Pool) : w.Quiet { v with pool := p } := ⟨h.1, h.2⟩

theorem Works.unfailed_modContour {w : Works} {id : Nat} {f : Contour → Contour}
    (h : ∀ c, (f c).prog.pendingFailure = c.prog.pendingFailure) : (w.modContour id f).unfailed = w.unfailed := by
  funext j
  unfold Works.unfailed
  by_cases hj : j = id
  · subst hj
    rw [Works.contour?_modContour_same]
    cases w.contour? j <;> simp [h]
  · rw [Works.contour?_modContour_other _ _ _ _ hj]

/-- A change of a contour that leaves its pending failure. -/
theorem Works.quiet_modContour {w : Works} {id : Nat} {f : Contour → Contour}
    (h : ∀ c, (f c).prog.pendingFailure = c.prog.pendingFailure) : w.Quiet (w.modContour id f) :=
  ⟨fun _ => rfl, Works.unfailed_modContour h⟩

theorem Works.beside_modContour (w : Works) (st : St) (id : Nat) (f : Contour → Contour) :
    w.Beside st (w.modContour id f) := fun _ _ => rfl

/-! ## Reports, marks, holds, the store -/

theorem Works.quiet_report (w : Works) (st : St) (b : ReportBody) : w.Quiet (w.report st b) := by
  unfold Works.report
  split
  · exact Works.quiet_upd rfl
  · exact (Works.quiet_upd rfl).trans (Works.quiet_raise _ _)

theorem Works.quiet_markReport (w : Works) (st : St) (m : MarkRef) (o : MarkOutcome) : w.Quiet (w.markReport st m o) :=
  (Works.quiet_report _ _ _).trans (Works.quiet_upd rfl)

theorem Works.quiet_markReport? (w : Works) (st : St) (m : Option MarkRef) (o : MarkOutcome) :
    w.Quiet (w.markReport? st m o) := by
  cases m with
  | none => exact Works.Quiet.refl w
  | some m => exact Works.quiet_markReport w st m o

theorem Works.quiet_markReports (w : Works) (st : St) (ms : List MarkRef) (o : MarkOutcome) :
    w.Quiet (w.markReports st ms o) := by
  induction ms generalizing w with
  | nil => exact Works.Quiet.refl w
  | cons m ms ih => exact (Works.quiet_markReport w st m o).trans (ih _)

theorem Works.quiet_progressUpdate (w : Works) (st : St) : w.Quiet (w.progressUpdate st) := by
  unfold Works.progressUpdate
  split
  · exact Works.Quiet.refl w
  · split
    · exact Works.quiet_upd rfl
    · exact Works.quiet_report _ _ _

theorem Station.gauge_callStop (x : Station) : x.callStop.gauge = x.gauge := by
  unfold Station.callStop
  split <;> rfl

theorem Works.quiet_addHolds (w : Works) (st : St) (rs : Holds) (code : Option Byte) (cause : Option Cause) :
    w.Quiet (w.addHolds st rs code cause) := by
  simp only [Works.addHolds]
  split
  · rename_i h
    have hp : (w.station st).state.phase = .active := by
      have h1 := h.1
      cases hs : (w.station st).state <;> simp [Station.working, hs] at h1 <;> rfl
    exact ((Works.quiet_upd (by
        simp only [Station.gauge, hp]
        rfl)).trans
      (Works.quiet_report _ _ _)).trans ((Works.quiet_raise _ _).trans (Works.quiet_upd (Station.gauge_callStop _)))
  · exact Works.Quiet.refl w

theorem Works.quiet_grant (w : Works) (st : St) (id need : Nat) : w.Quiet (w.grant st id need) :=
  ⟨fun _ => rfl, Works.unfailed_modContour fun _ => rfl⟩

theorem Works.quiet_arbiterRounds (n : Nat) (w : Works) : w.Quiet (Works.arbiterRounds n w) :=
  Works.arbiterRounds_keeps (P := fun v => w.Quiet v)
    (fun _ _ _ h _ _ _ => h.trans ((Works.quiet_grant _ _ _ _).trans (Works.quiet_upd rfl))) n w (Works.Quiet.refl w)

theorem Works.quiet_release (w : Works) (id : Nat) : w.Quiet (w.release id) := by
  simp only [Works.release]
  split
  · exact Works.Quiet.refl w
  · split
    · exact Works.Quiet.refl w
    · refine .trans (.pool ?_ _) (Works.quiet_arbiterRounds 4 _)
      refine .trans ?_ (Works.quiet_modContour fun _ => rfl)
      exact Works.quiet_markReports _ _ _ _

theorem Works.quiet_requestReservation (w : Works) (st : St) (id need : Nat) :
    w.Quiet (w.requestReservation st id need) := by
  simp only [Works.requestReservation]
  split
  · exact Works.quiet_grant _ _ _ _
  · refine .trans ?_ (Works.quiet_raise _ _)
    refine .trans ?_ (Works.quiet_report _ _ _)
    refine .trans ?_ (Works.quiet_upd rfl)
    exact .pool (.refl w) _

theorem Works.quiet_reportContourEnd (w : Works) (st : St) (id : Nat) : w.Quiet (w.reportContourEnd st id) := by
  unfold Works.reportContourEnd
  split
  · exact Works.Quiet.refl w
  · exact Works.quiet_report _ _ _

/-! ## Changes of one station -/

/-- Station `st` now gauges `g`; nothing else that weights look at has changed. -/
def Works.Turns (st : St) (w w' : Works) (g : Gauge) : Prop :=
  w'.gauge st = g ∧ w.Beside st w' ∧ w'.unfailed = w.unfailed

theorem Works.Turns.refl (st : St) (w : Works) : w.Turns st w (w.gauge st) := ⟨rfl, .refl st w, rfl⟩

theorem Works.Turns.quiet {st : St} {w v u : Works} {g : Gauge} (h : w.Turns st v g) (h' : v.Quiet u) : w.Turns st u g :=
  ⟨(h'.1 st).trans h.1, h.2.1.trans (h'.beside st), h'.2.trans h.2.2⟩

theorem Works.Turns.upd {st : St} {w v : Works} {g : Gauge} (h : w.Turns st v g) (F : Gauge → Gauge)
    {f : Station → Station} (hf : ∀ x, (f x).gauge = F x.gauge) : w.Turns st (v.upd st f) (F g) :=
  ⟨by rw [Works.gauge_upd_same, hf, ← Works.gauge, h.1], h.2.1.trans (Works.beside_upd v st f), h.2.2⟩

theorem Works.Quiet.turns {st : St} {w v : Works} (h : w.Quiet v) : w.Turns st v (w.gauge st) :=
  (Works.Turns.refl st w).quiet h

/-- The entry at the head leaves the queue. -/
theorem Works.turns_consumeHead (w : Works) (st : St) :
    w.Turns st (w.consumeHead st) { w.gauge st with queue := (w.gauge st).queue.tail } := by
  unfold Works.consumeHead
  split
  · rename_i h
    refine ⟨?_, .refl st w, rfl⟩
    simp [Works.gauge, Station.gauge, h]
  · rename_i e rest h
    refine .quiet (⟨?_, Works.beside_upd _ _ _, rfl⟩) (Works.quiet_progressUpdate _ _)
    simp [Works.gauge, Station.gauge, Station.recoveryWeight, Admission.setConsumed, h]

theorem Station.leaveContour_gauge (x : Station) :
    x.leaveContour.gauge = { x.gauge with current := none, recovery := 0 } := by
  simp only [Station.gauge, Station.leaveContour, Station.emptyPass, Station.recoveryWeight, Option.isSome_map]

/-- Some entries at the head of the queue, if they are the contour's, leave it. -/
theorem Works.turns_discardContour (w : Works) (st : St) (id : Nat) :
    ∃ q, w.Turns st (w.discardContour st id) { w.gauge st with queue := q }
      ∧ q.length ≤ (w.gauge st).queue.length
      ∧ ((w.gauge st).queue.head? = some id → q.length < (w.gauge st).queue.length) := by
  simp only [Works.discardContour]
  split
  · rename_i h
    refine ⟨_, .refl st w, Nat.le_refl _, fun hh => ?_⟩
    have h0 := List.getLast?_eq_none_iff.mp h
    simp only [Works.gauge, Station.gauge, List.head?_map] at hh
    cases hq : (w.station st).adm.queue with
    | nil => simp [hq] at hh
    | cons e rest =>
      have he : e.contour = id := by simpa [hq] using hh
      simp [hq, he] at h0
  · rename_i e h
    obtain ⟨hs, rs, lost, hm⟩ := Works.markReports_station w st
      (((w.station st).adm.queue.takeWhile fun e => e.contour == id).filterMap QEntry.mark) .discarded
    refine ⟨((w.station st).adm.queue.drop
        ((w.station st).adm.queue.takeWhile fun e => e.contour == id).length).map QEntry.contour, ?_, ?_, ?_⟩
    · refine .quiet (⟨?_, ?_, ?_⟩) (Works.quiet_progressUpdate _ _)
      · rw [Works.gauge_upd_same, hm]
        rfl
      · exact ((Works.quiet_markReports w st _ _).beside st).trans (Works.beside_upd _ _ _)
      · exact (Works.quiet_markReports w st _ _).2
    · simp [Works.gauge, Station.gauge]
    · intro hh
      simp only [Works.gauge, Station.gauge, List.head?_map] at hh
      cases hq : (w.station st).adm.queue with
      | nil => simp [hq] at hh
      | cons e rest =>
        have he : e.contour = id := by simpa [hq] using hh
        simp [Works.gauge, Station.gauge, hq, he] <;> omega

/-! ## The failure of a contour -/

/-- A failure under SKIP: the contour leaves the station and the table's unfailed contours gain it at most (R153). -/
theorem Works.failSkip_gauge (w : Works) (st : St) (id : Nat) (cause : Cause) :
    (∃ q d, (w.failSkip st id cause).gauge st =
        { w.gauge st with queue := q, current := none, recovery := 0, cutDue := d }
      ∧ q.length ≤ (w.gauge st).queue.length
      ∧ ((w.gauge st).queue.head? = some id → q.length < (w.gauge st).queue.length))
      ∧ w.Beside st (w.failSkip st id cause)
      ∧ ∀ j, (w.failSkip st id cause).unfailed j = true → j = id ∨ w.unfailed j = true := by
  let w1 := w.modContour id fun c =>
    { c with state := .failed, prog := { c.prog with outcome := some cause, pendingFailure := none } }
  let w2 := w1.upd st fun x => { x with failed := saturate Config.countLimit x.failed }
  have hu : ∀ j, w2.unfailed j = true → j = id ∨ w.unfailed j = true := by
    intro j hj
    by_cases h : j = id
    · exact .inl h
    · refine .inr ?_
      simpa [w2, w1, Works.unfailed, Works.contour?_modContour_other _ _ _ _ h] using hj
  have hb : w.Beside st w2 := Works.beside_upd _ _ _
  have hg : w2.gauge st = w.gauge st := by
    rw [Works.gauge_upd_same]
    rfl
  obtain ⟨q, ht, hl, hh⟩ := Works.turns_discardContour w2 st id
  have ht3 := ht.quiet (Works.quiet_release (w2.discardContour st id) id)
  refine ⟨⟨q, ?_⟩, ?_, ?_⟩
  · rw [hg] at hl hh
    let d : Bool :=
      let x := ((w2.discardContour st id).release id).station st
      decide (x.wire ≠ .unthreaded) && !(x.pair.any fun o => o.body.isWireCut)
    refine ⟨d, ?_, hl, hh⟩
    rw [Works.failSkip, (Works.quiet_reportContourEnd _ st id).1 st, Works.gauge_upd_same]
    have h4 := Station.leaveContour_gauge (((w2.discardContour st id).release id).station st)
    have h5 : (((w2.discardContour st id).release id).station st).gauge = { w2.gauge st with queue := q } := ht3.1
    rw [h5, hg] at h4
    exact congrArg (fun g : Gauge => { g with cutDue := d }) h4
  · exact ((hb.trans ht3.2.1).trans (Works.beside_upd _ _ _)).trans
      ((Works.quiet_reportContourEnd _ st id).beside st)
  · intro j hj
    rw [Works.failSkip, (Works.quiet_reportContourEnd _ st id).2] at hj
    refine hu j ?_
    rw [← ht3.2.2]
    exact hj

/-- A failure under HALT: the contour's failure is pending (R154). -/
theorem Works.failHalt_gauge (w : Works) (st : St) (id : Nat) (cause : Cause) (code : Option Byte) :
    (∀ j, (w.failHalt st id cause code).gauge j = w.gauge j)
      ∧ ∀ j, (w.failHalt st id cause code).unfailed j = (w.unfailed j && decide (j ≠ id)) := by
  have h := Works.quiet_addHolds
    (w.modContour id fun c => { c with prog := { c.prog with pendingFailure := some cause } }) st
    ((Holds.only .contourFailed).union (if code.isSome then Holds.only .driveFault else Holds.none)) code (some cause)
  refine ⟨fun j => h.1 j, fun j => ?_⟩
  rw [Works.failHalt, h.2]
  by_cases hj : j = id
  · subst hj
    simp only [Works.unfailed, Works.contour?_modContour_same]
    cases w.contour? j <;> simp
  · simp [Works.unfailed, Works.contour?_modContour_other _ _ _ _ hj, hj]

theorem Works.current?_some {w : Works} {st : St} {id : Nat} {c : Contour} (h : w.current? st = some (id, c)) :
    (w.station st).current = some id ∧ w.contour? id = some c := by
  unfold Works.current? at h
  split at h
  · cases h
  · rename_i i hi
    cases hc : w.contour? i with
    | none => simp [hc] at h
    | some d =>
      simp only [hc, Option.map_some, Option.some.injEq, Prod.mk.injEq] at h
      obtain ⟨rfl, rfl⟩ := h
      exact ⟨hi, hc⟩

theorem Works.failContour_skip {w : Works} {st : St} {id : Nat} {c : Contour} (cause : Cause) (code : Option Byte)
    (h : w.current? st = some (id, c)) (hp : c.cfg.policy = .skip) :
    w.failContour st cause code = (w.raise flagContourFailed).failSkip st id cause := by
  simp [Works.failContour, h, hp]

theorem Works.failContour_halt {w : Works} {st : St} {id : Nat} {c : Contour} (cause : Cause) (code : Option Byte)
    (h : w.current? st = some (id, c)) (hp : c.cfg.policy = .halt) :
    w.failContour st cause code = (w.raise flagContourFailed).failHalt st id cause code := by
  simp [Works.failContour, h, hp]

/-- What a contour failure leaves of the gauges (R153, R154). -/
theorem Works.failContour_gauge (w : Works) (st : St) (cause : Cause) (code : Option Byte) :
    (∃ q current recovery cutDue, (w.failContour st cause code).gauge st =
        { w.gauge st with queue := q, current := current, recovery := recovery, cutDue := cutDue })
      ∧ w.Beside st (w.failContour st cause code)
      ∧ ∀ id c, w.current? st = some (id, c) → c.prog.pendingFailure = none → (w.gauge st).phase = .active →
        w.Kept (w.failContour st cause code)
          ∧ ((w.failContour st cause code).gauge st).weight (w.failContour st cause code).unfailed
            < (w.gauge st).weight w.unfailed := by
  rcases Option.eq_none_or_eq_some (w.current? st) with hc | ⟨⟨id, c⟩, hc⟩
  · have h0 : w.failContour st cause code = w := by simp [Works.failContour, hc]
    rw [h0]
    exact ⟨⟨_, _, _, _, rfl⟩, .refl st w, by simp [hc]⟩
  · obtain ⟨hcur, hct⟩ := Works.current?_some hc
    have hcur' : (w.gauge st).current = some id := hcur
    rcases hpol : c.cfg.policy with _ | _
    · rw [Works.failContour_skip cause code hc hpol]
      obtain ⟨⟨q, d, hg, hl, hh⟩, hb, hu⟩ := Works.failSkip_gauge (w.raise flagContourFailed) st id cause
      refine ⟨⟨_, _, _, _, hg⟩, hb, ?_⟩
      intro id' c' he hp hph
      rw [hc] at he
      obtain ⟨rfl, rfl⟩ := Prod.mk.inj (Option.some.inj he)
      have hf : w.unfailed id = true := by simp [Works.unfailed, hct, hp]
      refine ⟨fun j hj => (hu j hj).elim (fun e => e ▸ hf) fun h => h, ?_⟩
      rw [hg]
      change q.length ≤ (w.gauge st).queue.length at hl
      change (w.gauge st).queue.head? = some id → q.length < (w.gauge st).queue.length at hh
      have he : (w.raise flagContourFailed).gauge st = w.gauge st := rfl
      rw [he]
      simp only [Gauge.weight, hph, Gauge.currentWeight, hcur', hf, Gauge.listWeight, if_true]
      have hd : (if d = true then 1 else 0) ≤ 1 := by split <;> omega
      by_cases h1 : (w.gauge st).queue.head? = some id
      · have := hh h1
        simp only [h1, if_true]
        omega
      · simp only [h1, if_false]
        omega
    · rw [Works.failContour_halt cause code hc hpol]
      obtain ⟨hg, hu⟩ := Works.failHalt_gauge (w.raise flagContourFailed) st id cause code
      refine ⟨⟨_, _, _, _, hg st⟩, fun j _ => hg j, ?_⟩
      intro id' c' he hp hph
      rw [hc] at he
      obtain ⟨rfl, rfl⟩ := Prod.mk.inj (Option.some.inj he)
      have hf : w.unfailed id = true := by simp [Works.unfailed, hct, hp]
      have hf' := hu id
      refine ⟨fun j hj => ?_, ?_⟩
      · have := hu j
        rw [hj] at this
        exact (Bool.and_eq_true_iff.mp this.symm).1
      · rw [hg st]
        change (w.gauge st).weight _ < _
        simp only [Gauge.weight, hph, Gauge.currentWeight, hcur', hf, hf']
        simp

/-! ## Weights -/

theorem Gauge.weight_active {g : Gauge} (h : g.phase = .active) (free : Nat → Bool) :
    g.weight free = 16 + 32 * g.queue.length + g.listWeight + g.currentWeight free + g.recovery + (2 - g.pair)
      + (if g.episode then 0 else 1) + (if g.cutDue then 1 else 0) + (if g.asking then 1 else 0) := by
  simp [Gauge.weight, h]

theorem Gauge.weight_aborting {g : Gauge} (h : g.phase = .aborting) (free : Nat → Bool) :
    g.weight free = 8 + (if g.pair = 0 ∧ g.wired = true then 1 else 0) := by
  simp [Gauge.weight, h]

theorem Gauge.weight_idle {g : Gauge} (h : g.phase = .idle) (free : Nat → Bool) : g.weight free = 0 := by
  simp [Gauge.weight, h]

theorem Gauge.currentWeight_bounds (g : Gauge) (free : Nat → Bool) :
    1 ≤ g.currentWeight free ∧ g.currentWeight free ≤ 7 := by
  unfold Gauge.currentWeight
  split
  · omega
  · split <;> split <;> omega

theorem Gauge.currentWeight_none {g : Gauge} (h : g.current = none) (free : Nat → Bool) : g.currentWeight free = 4 := by
  simp [Gauge.currentWeight, h]

/-- The weight of a gauge when contours are freed of their failure by at most the current one. -/
theorem Gauge.weight_le_succ (g : Gauge) (f f' : Nat → Bool) : g.weight f' ≤ g.weight f + 1 := by
  have h : g.currentWeight f' ≤ g.currentWeight f + 1 := by
    unfold Gauge.currentWeight
    split
    · omega
    · split <;> split <;> split <;> omega
  unfold Gauge.weight
  split <;> omega

theorem Gauge.weight_mono (g : Gauge) {f f' : Nat → Bool} (hf : ∀ id, f' id = true → f id = true) :
    g.weight f' ≤ g.weight f := by
  have h : g.currentWeight f' ≤ g.currentWeight f := by
    unfold Gauge.currentWeight
    split
    · omega
    · rename_i id _
      have := hf id
      cases h1 : f' id <;> cases h2 : f id <;> simp_all
  unfold Gauge.weight
  split <;> omega

/-! ## Lowering -/

/-- An action of station `st` lowers the number of actions left. -/
def Works.Lowers (st : St) (w w' : Works) : Prop :=
  w.Beside st w' ∧ (w'.gauge st).weight w'.unfailed < (w.gauge st).weight w.unfailed
    ∧ (w.Kept w' ∨ (w'.gauge st).weight w'.unfailed + 4 ≤ (w.gauge st).weight w.unfailed)

theorem Works.Turns.lowers {st : St} {w w' : Works} {g : Gauge} (h : w.Turns st w' g)
    (hg : g.weight w.unfailed < (w.gauge st).weight w.unfailed) : w.Lowers st w' := by
  obtain ⟨h1, h2, h3⟩ := h
  refine ⟨h2, by rwa [h1, h3], .inl fun id hi => by rwa [h3] at hi⟩

theorem Works.Quiet.lowers {st : St} {w v w' : Works} (h : w.Quiet v) (hl : v.Lowers st w') : w.Lowers st w' := by
  obtain ⟨h1, h2, h3⟩ := hl
  rw [h.1 st, h.2] at h2 h3
  exact ⟨(h.beside st).trans h1, h2, h3.imp (fun k => h.kept.trans k) id⟩

theorem Works.Turns.beside {st : St} {w v : Works} {g : Gauge} (h : w.Turns st v g) : w.Beside st v := h.2.1

/-! ## Drive loss and teardown -/

theorem Works.turns_endEpisode (w : Works) (st : St) (out : ThreadOutcome) :
    w.Turns st (w.endEpisode st out) { w.gauge st with episode := false } := by
  unfold Works.endEpisode
  split
  · rename_i h
    refine ⟨?_, .refl st w, rfl⟩
    simp [Works.gauge, Station.gauge, h]
  · have h1 := (Works.Turns.refl st w).upd (fun g => { g with episode := false })
      (f := fun x => { x with tc :=
        { x.tc with state := .idle, ok := out == .threaded, fail := out != .threaded, episode := none } })
      fun x => rfl
    cases out
    · exact h1.quiet (Works.quiet_report _ st _)
    · exact h1.quiet ((Works.quiet_report _ st _).trans (Works.quiet_raise _ _))
    · exact h1.quiet ((Works.quiet_report _ st _).trans (Works.quiet_raise _ _))
    · exact h1.quiet ((Works.quiet_report _ st _).trans (Works.quiet_raise _ _))
    · exact h1.quiet (Works.quiet_report _ st _)

theorem Works.turns_abortIdleEpisode (w : Works) (st : St) :
    ∃ e wired, w.Turns st (w.abortIdleEpisode st) { w.gauge st with episode := e, wired := wired }
      ∧ (wired = true → (w.gauge st).wired = true) := by
  unfold Works.abortIdleEpisode
  split
  · exact ⟨_, _, .refl st w, id⟩
  · split
    · dsimp only
      split
      · exact ⟨false, false, (Works.turns_endEpisode w st .aborted).upd (fun g => { g with wired := false })
          fun _ => rfl, by simp⟩
      · exact ⟨false, _, Works.turns_endEpisode w st .aborted, id⟩
    · exact ⟨_, _, .refl st w, id⟩

theorem Works.startTeardown_gauge (w : Works) (st : St) (cause : TeardownCause) :
    w.Beside st (w.startTeardown st cause) ∧ (w.startTeardown st cause).unfailed = w.unfailed
      ∧ ((w.startTeardown st cause).gauge st).phase = .aborting
      ∧ (((w.startTeardown st cause).gauge st).wired = true → (w.gauge st).wired = true) := by
  let w1 := w.upd st fun x =>
    { x with
      state := .aborting, holds := Holds.none, catchWait := none, returned := [], failureCutDue := false
      teardown := some cause }
  let w2 : Works := { w1 with pool := { w1.pool with waiting := w1.pool.waiting.set st none } }
  have h2 : w.Turns st w2 { w.gauge st with phase := .aborting, cutDue := false } :=
    (Works.Turns.refl st w).upd (fun g => { g with phase := .aborting, cutDue := false }) fun _ => rfl
  obtain ⟨e, wired, ht, hw⟩ := Works.turns_abortIdleEpisode w2 st
  have h3 := ht.quiet (Works.quiet_upd (f := Station.callStop) (st := st) (Station.gauge_callStop _))
  rw [h2.1] at h3 hw
  refine ⟨h2.2.1.trans h3.2.1, h3.2.2.trans h2.2.2, ?_, ?_⟩
  · exact congrArg Gauge.phase h3.1
  · intro h
    exact hw ((congrArg Gauge.wired h3.1).symm.trans h)

theorem Works.settleBreak_gauge (w : Works) (st : St) (position : Option (Nat × Nat)) (code : Option Byte) :
    w.Beside st (w.settleBreak st position code)
      ∧ (∃ q current recovery cutDue, (w.settleBreak st position code).gauge st =
          { w.gauge st with queue := q, current := current, recovery := recovery, cutDue := cutDue })
      ∧ ((w.gauge st).phase = .aborting → (w.settleBreak st position code).unfailed = w.unfailed) := by
  let w1 := w.upd st fun x =>
    { x with
      breakPending := false
      wirePlace := .nowhere
      returned := x.returned.filter fun r => !r.body.isBrokenWork }
  have h1 : w.Quiet w1 := Works.quiet_upd rfl
  rcases Option.eq_none_or_eq_some (w1.current? st) with hc | ⟨⟨id, c⟩, hc⟩
  · have he : w.settleBreak st position code = w1 := by
      simp only [Works.settleBreak]
      rw [hc]
    rw [he]
    exact ⟨h1.beside st, ⟨_, _, _, _, h1.1 st⟩, fun _ => h1.2⟩
  · let pass : Pass := if (w1.tailWork st id).isSome then .tail else .main
    let count := c.prog.breaks + 1
    let exceeded := decide (c.cfg.breakLimit < count)
    let w2 := w1.modContour id fun c => { c with prog := { c.prog with breaks := count } }
    let w3 := (w2.report st (.wireBreak id pass (w.station st).wirePlace
      (position.getD (w1.boundary st id c)) (w1.boundary st id c) count exceeded)).raise flagWireBreak
    let w4 := w3.upd st fun x => { x with recovery := some (Recovery.fresh id pass (w.station st).wirePlace) }
    have h2 : w1.Quiet w2 := Works.quiet_modContour fun _ => rfl
    have h3 : w2.Quiet w3 := (Works.quiet_report w2 st _).trans (Works.quiet_raise _ _)
    have h4 : w.Turns st w4 { w.gauge st with recovery := 1 } :=
      (((h1.trans h2).trans h3).turns (st := st)).upd (fun g => { g with recovery := 1 })
        (f := fun x => { x with recovery := some (Recovery.fresh id pass (w.station st).wirePlace) }) fun x => rfl
    have he : w.settleBreak st position code
        = if exceeded ∧ (w.station st).state ≠ .aborting then w4.failContour st .breakLimit code else w4 := by
      simp only [Works.settleBreak]
      rw [hc]
    rw [he]
    split
    · rename_i he
      obtain ⟨⟨q, cu, r, d, hg⟩, hb, -⟩ := Works.failContour_gauge w4 st .breakLimit code
      rw [h4.1] at hg
      refine ⟨h4.2.1.trans hb, ⟨q, cu, r, d, hg⟩, fun hp => ?_⟩
      refine absurd ?_ he.2
      change (w.station st).state.phase = _ at hp
      cases hs : (w.station st).state <;> simp [hs, StationState.phase] at hp ⊢
    · exact ⟨h4.2.1, ⟨_, _, _, _, h4.1⟩, fun _ => h4.2.2⟩

theorem StationState.phase_active {s : StationState} : s.phase = .active ↔ s = .active ∨ s = .held := by
  cases s <;> simp [StationState.phase]

theorem StationState.phase_aborting {s : StationState} : s.phase = .aborting ↔ s = .aborting := by
  cases s <;> simp [StationState.phase]

/-- Drive loss leaves a station in teardown with no wire to cut. -/
theorem Works.driveLoss_gauge (w : Works) (st : St) (h : (w.gauge st).phase ≠ .idle) :
    w.Beside st (w.driveLoss st) ∧ ((w.driveLoss st).gauge st).phase = .aborting
      ∧ ((w.driveLoss st).gauge st).wired = false
      ∧ ((w.gauge st).phase = .aborting → (w.driveLoss st).unfailed = w.unfailed) := by
  let w1 := w.upd st fun x =>
    { x with pair := [], stopAwaited := false, wire := .unknown, tc := { x.tc with state := .idle } }
  let w2 := if (w1.station st).breakPending then w1.settleBreak st none none else w1
  let w3 := w2.upd st fun x => { x with wirePlace := .nowhere }
  have h1 : w.Turns st w1 { w.gauge st with pair := 0, wired := false } :=
    (Works.Turns.refl st w).upd (fun g => { g with pair := 0, wired := false }) fun _ => rfl
  have h2 : w1.Beside st w2
      ∧ ((w2.gauge st).phase = (w1.gauge st).phase ∧ (w2.gauge st).wired = (w1.gauge st).wired)
      ∧ ((w1.gauge st).phase = .aborting → w2.unfailed = w1.unfailed) := by
    by_cases hb : (w1.station st).breakPending
    · obtain ⟨a, ⟨q, cu, r, d, hg⟩, c⟩ := Works.settleBreak_gauge w1 st none none
      simp only [w2, hb, if_true]
      exact ⟨a, by rw [hg]; exact ⟨rfl, rfl⟩, c⟩
    · simp only [w2, hb]
      exact ⟨.refl st w1, ⟨rfl, rfl⟩, fun _ => rfl⟩
  have h3 : w2.Quiet w3 := Works.quiet_upd rfl
  have hb3 : w.Beside st w3 := (h1.2.1.trans h2.1).trans (h3.beside st)
  have hp3 : (w3.gauge st).phase = (w.gauge st).phase := by rw [h3.1, h2.2.1.1, h1.1]
  have hw3 : (w3.gauge st).wired = false := by rw [h3.1, h2.2.1.2, h1.1]
  have hu3 : (w.gauge st).phase = .aborting → w3.unfailed = w.unfailed := by
    intro hp
    rw [h3.2, h2.2.2 (by rw [h1.1]; exact hp), h1.2.2]
  have hs : (w3.station st).state.phase = (w.gauge st).phase := hp3
  have hwired : ∀ b : Bool, (b = true → (w3.gauge st).wired = true) → b = false := by
    intro b hb
    rw [hw3] at hb
    cases b
    · rfl
    · exact absurd (hb rfl) (by simp)
  obtain ⟨a, b, c, d⟩ := Works.startTeardown_gauge w3 st .driveLost
  cases hst : (w3.station st).state with
  | idle => rw [← hs, hst] at h; simp [StationState.phase] at h
  | active | held =>
    have he : w.driveLoss st = w3.startTeardown st .driveLost := by
      simp only [Works.driveLoss]
      rw [hst]
    rw [he]
    exact ⟨hb3.trans a, c, hwired _ d, fun hp => b.trans (hu3 hp)⟩
  | aborting =>
    have he : w.driveLoss st = w3.abortIdleEpisode st := by
      simp only [Works.driveLoss]
      rw [hst]
    rw [he]
    obtain ⟨e, wired, ht, hw⟩ := Works.turns_abortIdleEpisode w3 st
    refine ⟨hb3.trans ht.2.1, ?_, ?_, fun hp => ht.2.2.trans (hu3 hp)⟩
    · rw [ht.1]
      rw [hst] at hs
      exact hp3.trans hs.symm
    · rw [ht.1]
      exact hwired _ hw

/-- Drive loss does what `Works.DriveLost` says (R63, R116). -/
theorem Works.driveLoss_lost (w : Works) (st : St) : w.DriveLost st (w.driveLoss st) := by
  let w1 := w.upd st fun x =>
    { x with pair := [], stopAwaited := false, wire := .unknown, tc := { x.tc with state := .idle } }
  let w2 := if (w1.station st).breakPending then w1.settleBreak st none none else w1
  let w3 := w2.upd st fun x => { x with wirePlace := .nowhere }
  have hb : (w1.station st).breakPending = (w.station st).breakPending := by simp [w1]
  have hp : (w3.station st).state.phase = (w.station st).state.phase := by
    have h1 : (w1.station st).state.phase = (w.station st).state.phase := by simp [w1]
    have h2 : (w2.station st).state.phase = (w1.station st).state.phase := by
      by_cases hb : (w1.station st).breakPending
      · obtain ⟨-, ⟨q, cu, r, d, hg⟩, -⟩ := Works.settleBreak_gauge w1 st none none
        simp only [w2, hb, if_true]
        exact congrArg Gauge.phase hg
      · simp only [w2, hb]
        rfl
    rw [← h1, ← h2]
    simp [w3]
  have he : w.driveLoss st =
      match (w3.station st).state with
      | .active | .held => w3.startTeardown st .driveLost
      | .aborting => w3.abortIdleEpisode st
      | .idle => w3 := rfl
  refine ⟨w2, fun h => ?_, fun h => ?_, fun h => ?_, fun h => ?_, fun h => ?_⟩
  · simp only [w2, hb, h]
    rfl
  · simp only [w2, hb, h, if_true]
    exact Works.settleBreak_settles ..
  · rw [StationState.phase_active.mpr h] at hp
    have ht := Works.startTeardown_begins w3 st .driveLost
    rw [he]
    rcases StationState.phase_active.mp hp with hs | hs <;> rw [hs] <;> exact ht
  · rw [StationState.phase_aborting.mpr h, StationState.phase_aborting] at hp
    rw [he, hp]
    exact Works.abortIdleEpisode_ends w3 st
  · rw [h] at hp
    have hs : (w3.station st).state = .idle := by
      cases hs : (w3.station st).state <;> simp [hs, StationState.phase] at hp ⊢
    rw [he, hs]

theorem Works.driveLoss_lowers {w : Works} {st : St} (h : (w.gauge st).phase = .active) :
    w.Lowers st (w.driveLoss st) := by
  obtain ⟨a, b, c, -⟩ := Works.driveLoss_gauge w st (by rw [h]; simp)
  have h8 : ((w.driveLoss st).gauge st).weight (w.driveLoss st).unfailed = 8 := by
    rw [Gauge.weight_aborting b, c]
    simp
  have h16 : 16 ≤ (w.gauge st).weight w.unfailed := by
    rw [Gauge.weight_active h]
    omega
  exact ⟨a, by omega, .inr (by omega)⟩

/-! ## Issuing -/

/-- An issue lowers the actions left, if what it changes does not raise them and the pair has room. -/
theorem Works.issue_lowers {w : Works} {st : St} {body : OpBody} {pre : Works → Works} {g : Gauge}
    (h : (w.gauge st).phase = .active) (ht : w.Turns st (pre w) g) (hg : g.phase = .active) (hp : g.pair < 2)
    (hw : g.weight w.unfailed ≤ (w.gauge st).weight w.unfailed) : w.Lowers st (w.issue st body pre) := by
  unfold Works.issue
  split
  · refine (ht.upd (fun g => { g with pair := g.pair + 1 }) fun x => by
      simp [Station.gauge, Station.push, Station.recoveryWeight]).lowers (Nat.lt_of_lt_of_le ?_ hw)
    have h1 : Gauge.phase { g with pair := g.pair + 1 } = .active := hg
    rw [Gauge.weight_active hg, Gauge.weight_active h1]
    simp only [Gauge.listWeight, Gauge.currentWeight]
    omega
  · exact Works.driveLoss_lowers h

/-- An issue whose change weights do not look at. -/
theorem Works.issue_lowers_quiet {w : Works} {st : St} {body : OpBody} {pre : Works → Works}
    (h : (w.gauge st).phase = .active) (hq : w.Quiet (pre w)) (hp : (w.gauge st).pair < 2) :
    w.Lowers st (w.issue st body pre) :=
  Works.issue_lowers h hq.turns h hp (Nat.le_refl _)

/-! ### Changes of an ACTIVE station's gauge that lower its weight -/

theorem Gauge.lt_recovery {g : Gauge} (h : g.phase = .active) (f : Nat → Bool) {n : Nat} (hn : n < g.recovery) :
    Gauge.weight { g with recovery := n } f < g.weight f := by
  have h' : Gauge.phase { g with recovery := n } = .active := h
  rw [Gauge.weight_active h, Gauge.weight_active h']
  simp only [Gauge.listWeight, Gauge.currentWeight]
  omega

theorem Gauge.lt_episode {g : Gauge} (h : g.phase = .active) (f : Nat → Bool) (he : g.episode = false) :
    Gauge.weight { g with episode := true } f < g.weight f := by
  have h' : Gauge.phase { g with episode := true } = .active := h
  rw [Gauge.weight_active h, Gauge.weight_active h']
  simp only [Gauge.listWeight, Gauge.currentWeight, he]
  simp

theorem Gauge.lt_cutDue {g : Gauge} (h : g.phase = .active) (f : Nat → Bool) (he : g.cutDue = true) :
    Gauge.weight { g with cutDue := false } f < g.weight f := by
  have h' : Gauge.phase { g with cutDue := false } = .active := h
  rw [Gauge.weight_active h, Gauge.weight_active h']
  simp only [Gauge.listWeight, Gauge.currentWeight, he]
  simp

theorem Gauge.lt_push {g : Gauge} (h : g.phase = .active) (f : Nat → Bool) (hp : g.pair < 2) :
    Gauge.weight { g with pair := g.pair + 1 } f < g.weight f := by
  have h' : Gauge.phase { g with pair := g.pair + 1 } = .active := h
  rw [Gauge.weight_active h, Gauge.weight_active h']
  simp only [Gauge.listWeight, Gauge.currentWeight]
  omega

/-- The head of the queue goes, whatever becomes current, if the list grows by one at most and no pass starts. -/
theorem Gauge.lt_consume {g : Gauge} (h : g.phase = .active) (f : Nat → Bool) {q : List Nat} {cu : Option Nat}
    {r : Nat} (hq : q.length < g.queue.length) (hr : r ≤ g.recovery) :
    Gauge.weight { g with queue := q, current := cu, recovery := r } f < g.weight f := by
  have h' : Gauge.phase { g with queue := q, current := cu, recovery := r } = .active := h
  rw [Gauge.weight_active h, Gauge.weight_active h']
  have h1 := Gauge.currentWeight_bounds { g with queue := q, current := cu, recovery := r } f
  have h2 := Gauge.currentWeight_bounds g f
  simp only [Gauge.listWeight] at h1 h2 ⊢
  omega

theorem Gauge.lt_defer {g : Gauge} (h : g.phase = .active) (f : Nat → Bool) {q : List Nat}
    (hq : q.length < g.queue.length) :
    Gauge.weight { g with queue := q, current := none, recovery := 0, deferred := g.deferred + 1 } f < g.weight f := by
  have h' : Gauge.phase { g with queue := q, current := none, recovery := 0, deferred := g.deferred + 1 } = .active := h
  rw [Gauge.weight_active h, Gauge.weight_active h']
  have h2 := Gauge.currentWeight_bounds g f
  have h1 : Gauge.listWeight { g with queue := q, current := none, recovery := 0, deferred := g.deferred + 1 }
      ≤ g.listWeight + 24 := by
    unfold Gauge.listWeight
    cases g.inPass <;> simp <;> try split <;> omega
    omega
  rw [Gauge.currentWeight_none rfl]
  simp only
  omega

/-- The head of the queue goes and a pass may start. -/
theorem Gauge.lt_consume_pass {g : Gauge} (h : g.phase = .active) (f : Nat → Bool) {q : List Nat} {b : Bool}
    (hq : q.length < g.queue.length) (hb : g.inPass = true → b = true) :
    Gauge.weight { g with queue := q, inPass := b } f < g.weight f := by
  have h' : Gauge.phase { g with queue := q, inPass := b } = .active := h
  rw [Gauge.weight_active h, Gauge.weight_active h']
  have h1 := Gauge.currentWeight_bounds { g with queue := q, inPass := b } f
  have h2 := Gauge.currentWeight_bounds g f
  have h3 : Gauge.listWeight { g with queue := q, inPass := b } ≤ g.listWeight + 1 := by
    unfold Gauge.listWeight
    cases hg : g.inPass <;> cases b <;> simp_all <;> split <;> omega
  simp only at h1 ⊢
  omega

/-- A pass starts over a list that is not empty. -/
theorem Gauge.lt_startPass {g : Gauge} (h : g.phase = .active) (f : Nat → Bool) (hi : g.inPass = false)
    (hd : g.deferred ≠ 0) : Gauge.weight { g with inPass := true } f < g.weight f := by
  have h' : Gauge.phase { g with inPass := true } = .active := h
  rw [Gauge.weight_active h, Gauge.weight_active h']
  simp only [Gauge.listWeight, Gauge.currentWeight, hi, hd]
  simp
  omega

/-- A reservation request has been made. -/
theorem Gauge.lt_asked {g : Gauge} (h : g.phase = .active) (f : Nat → Bool) (ha : g.asking = true) :
    Gauge.weight { g with asking := false } f < g.weight f := by
  have h' : Gauge.phase { g with asking := false } = .active := h
  rw [Gauge.weight_active h, Gauge.weight_active h']
  simp only [Gauge.listWeight, Gauge.currentWeight, ha]
  simp

/-- The contour of the head becomes current, its request made or not. -/
theorem Gauge.lt_enter {g : Gauge} (h : g.phase = .active) (f : Nat → Bool) {id : Nat} {a : Bool}
    (hc : g.current ≠ some id)
    (hq : g.queue.head? = some id) :
    Gauge.weight { g with current := some id, asking := a } f < g.weight f := by
  have h' : Gauge.phase { g with current := some id, asking := a } = .active := h
  have h1 : 4 ≤ g.currentWeight f := by
    unfold Gauge.currentWeight
    split
    · omega
    · rename_i j hj
      have hne : id ≠ j := fun e => hc (e ▸ hj)
      simp [hq, hne]
      omega
  have hf : (if f id = true then 1 else 0) ≤ 1 := by split <;> omega
  have h2 : Gauge.currentWeight { g with current := some id, asking := a } f ≤ 2 := by
    simp only [Gauge.currentWeight, hq, if_true]
    omega
  have h3 : (if a = true then 1 else 0) ≤ 1 := by split <;> omega
  rw [Gauge.weight_active h, Gauge.weight_active h']
  simp only [Gauge.listWeight]
  omega

/-- In a pass, the head of the list leaves it, and may become current. -/
theorem Gauge.lt_passContour {g : Gauge} (h : g.phase = .active) (f : Nat → Bool) {d : Nat} {cu : Option Nat}
    (hi : g.inPass = true) (hd : g.deferred = d + 1) :
    Gauge.weight { g with deferred := d, current := cu } f < g.weight f := by
  have h' : Gauge.phase { g with deferred := d, current := cu } = .active := h
  rw [Gauge.weight_active h, Gauge.weight_active h']
  have h1 := Gauge.currentWeight_bounds { g with deferred := d, current := cu } f
  have h2 := Gauge.currentWeight_bounds g f
  generalize Gauge.currentWeight { g with deferred := d, current := cu } f = n at h1 ⊢
  simp only [Gauge.listWeight, hi, hd, if_true]
  simp only [Nat.add_eq_zero_iff, Nat.one_ne_zero, and_false, if_false]
  split <;> omega

theorem Gauge.lt_endPass {g : Gauge} (h : g.phase = .active) (f : Nat → Bool) (hi : g.inPass = true)
    (hd : g.deferred = 0) : Gauge.weight { g with inPass := false } f < g.weight f := by
  have h' : Gauge.phase { g with inPass := false } = .active := h
  rw [Gauge.weight_active h, Gauge.weight_active h']
  simp only [Gauge.listWeight, Gauge.currentWeight, hi, hd]
  simp

/-! ## Tail intake -/

theorem Works.turns_defer (w : Works) (st : St) (id : Nat) :
    w.Turns st (w.defer st id)
      { w.gauge st with current := none, recovery := 0, deferred := (w.gauge st).deferred + 1 } := by
  have h1 : w.Quiet (w.modContour id fun c => c.setState .deferred) := Works.quiet_modContour fun _ => rfl
  have h2 := (h1.turns (st := st)).upd
    (fun g => { g with current := none, recovery := 0, deferred := g.deferred + 1 })
    (f := fun x => { x.leaveContour with deferred := x.deferred ++ [id] }) fun x => by
      have := Station.leaveContour_gauge x
      have h3 := congrArg (fun g : Gauge => { g with deferred := x.deferred.length + 1 }) this
      refine Eq.trans ?_ h3
      simp [Station.gauge, Station.recoveryWeight, Station.leaveContour, Station.emptyPass]
  exact h2

theorem Works.intakeAct_lowers {w w' : Works} {st : St} (h : (w.gauge st).phase = .active)
    (hw : w.intakeAct st = some w') : w.Lowers st w' := by
  unfold Works.intakeAct at hw
  split at hw
  · rename_i id c e rest hc hq
    split at hw
    · obtain rfl := Option.some.inj hw
      have hlen : (w.gauge st).queue.tail.length < (w.gauge st).queue.length := by
        simp [Works.gauge, Station.gauge, hq]
      have h1 : w.Quiet (w.modContour id fun c => c.record (e.toKerf .tail none)) :=
        Works.quiet_modContour fun _ => rfl
      refine h1.lowers ?_
      generalize (w.modContour id fun c => c.record (e.toKerf .tail none)) = v at h1 ⊢
      rw [← h1.1 st] at h hlen
      have h2 := Works.turns_consumeHead v st
      split
      · have h3 := Works.turns_defer (v.consumeHead st) st id
        rw [h2.1] at h3
        exact Works.Turns.lowers ⟨h3.1, h2.2.1.trans h3.2.1, h3.2.2.trans h2.2.2⟩ (Gauge.lt_defer h _ hlen)
      · exact h2.lowers (Gauge.lt_consume (cu := (v.gauge st).current) h _ hlen (Nat.le_refl _))
    · cases hw
  · cases hw

/-! ## Threading and recovery -/

theorem Works.current?_of_quiet_parts {w v : Works} {st : St} (h : (v.station st).current = (w.station st).current)
    (hc : v.contours = w.contours) : v.current? st = w.current? st := by
  simp [Works.current?, Works.contour?, h, hc]

theorem Works.endEpisode_contours (w : Works) (st : St) (out : ThreadOutcome) :
    (w.endEpisode st out).contours = w.contours := by
  unfold Works.endEpisode
  split
  · rfl
  · cases out <;> simp [Works.modThreader] <;> rfl

theorem Works.current?_endEpisode (w : Works) (st : St) (out : ThreadOutcome) :
    (w.endEpisode st out).current? st = w.current? st :=
  Works.current?_of_quiet_parts (congrArg Gauge.current (Works.turns_endEpisode w st out).1)
    (Works.endEpisode_contours w st out)

theorem Gauge.of_episode {g : Gauge} {b : Bool} (h : g.episode = b) : { g with episode := b } = g := by
  cases g
  simp_all

/-- An episode begins, or fails at once, in a station that has none. -/
theorem Works.startEpisode_lowers {w : Works} {st : St} {kind : EpisodeKind} {id : Nat} {c : Contour}
    (h : (w.gauge st).phase = .active) (he : (w.station st).tc.episode = none)
    (hc : w.current? st = some (id, c)) (hp : c.prog.pendingFailure = none)
    (hk : kind = .inKerf → ∃ r, (w.station st).recovery = some r ∧ r.step = .inKerf) :
    w.Lowers st (w.startEpisode st kind id c) := by
  have heg : (w.gauge st).episode = false := by simp [Works.gauge, Station.gauge, he]
  simp only [Works.startEpisode]
  generalize hE : (Episode.mk _ _ _ _ _ _ _ _ _ _ _ _ _ _) = E
  have hEa : E.attempts = 0 := by rw [← hE]
  have hEk : E.kind = kind := by rw [← hE]
  clear hE
  generalize hV : (w.modThreader st _) = v
  have hv : w.Turns st v { w.gauge st with episode := true } := by
    rw [← hV]
    exact (Works.Turns.refl st w).upd (fun g => { g with episode := true }) (f := fun x => { x with tc := _ }) fun x => rfl
  have hve : (v.station st).tc.episode = some E := by rw [← hV]; simp [Works.modThreader]
  have hvc : v.current? st = some (id, c) := by
    rw [← hc, ← hV]
    exact Works.current?_of_quiet_parts (by simp [Works.modThreader]) rfl
  have hvr : (v.station st).recovery = (w.station st).recovery := by rw [← hV]; simp [Works.modThreader]
  clear hV
  unfold Works.attemptDue
  rw [hve]
  dsimp only
  split
  · -- the attempts are used up at once
    unfold Works.episodeFails
    rw [hve]
    dsimp only
    have h1 := Works.turns_endEpisode v st .threadAttempts
    have h2 : w.Quiet (v.endEpisode st .threadAttempts) := by
      refine ⟨fun j => ?_, h1.2.2.trans hv.2.2⟩
      by_cases hj : j = st
      · subst hj
        rw [h1.1, hv.1]
        exact Gauge.of_episode heg
      · rw [h1.2.1 j hj, hv.2.1 j hj]
    rw [hEk]
    cases kind with
    | inKerf =>
      obtain ⟨r, hr, hs⟩ := hk rfl
      have hg : (w.gauge st).recovery = 2 := by simp [Works.gauge, Station.gauge, Station.recoveryWeight, hr, hs]
      have hrec : ((v.endEpisode st .threadAttempts).station st).recovery = some r := by
        rw [← hr, ← hvr]
        unfold Works.endEpisode
        rw [hve]
        dsimp only
        rw [Works.raise_station]
        obtain ⟨rs, lost, hrep⟩ := Works.report_station (v.modThreader st fun t =>
          { t with state := .idle, ok := ThreadOutcome.threadAttempts == .threaded
                   fail := ThreadOutcome.threadAttempts != .threaded, episode := none }) st
          (.thread E.kind E.contour .threadAttempts E.attempts E.offset)
        rw [hrep]
        simp [Works.modThreader]
      refine h2.lowers (Works.Turns.lowers (g := { (v.endEpisode st .threadAttempts).gauge st with recovery := 1 })
        ⟨?_, Works.beside_upd _ _ _, rfl⟩ ?_)
      · simp [Works.modRecovery, Works.gauge, Station.gauge, Station.recoveryWeight, hrec]
      · rw [h2.1 st]
        exact Gauge.lt_recovery h _ (by omega)
    | startHole =>
      refine h2.lowers ?_
      have h3 : (v.endEpisode st .threadAttempts).current? st = some (id, c) := by rw [Works.current?_endEpisode, hvc]
      obtain ⟨-, hb, hl⟩ := Works.failContour_gauge (v.endEpisode st .threadAttempts) st
        (ThreadOutcome.cause .threadAttempts) none
      obtain ⟨hkept, hlt⟩ := hl id c h3 hp (by rw [h2.1]; exact h)
      exact ⟨hb, hlt, .inl hkept⟩
  · refine (Works.Turns.quiet hv (Works.quiet_upd ?_)).lowers ?_
    · simp [Station.gauge, Station.recoveryWeight, hve]
    · exact Gauge.lt_episode h _ heg

theorem Works.threadAct_lowers {w w' : Works} {st : St} {e : Episode} (h : (w.gauge st).phase = .active)
    (hw : w.threadAct st e = some w') : w.Lowers st w' := by
  simp only [Works.threadAct] at hw
  split at hw
  · rename_i hp
    have hpair : (w.gauge st).pair < 2 := by simp [Works.gauge, Station.gauge, hp.2]
    split at hw
    · obtain rfl := Option.some.inj hw
      exact Works.issue_lowers_quiet h (Works.quiet_upd rfl) hpair
    · obtain rfl := Option.some.inj hw
      exact Works.issue_lowers_quiet h (Works.quiet_upd rfl) hpair
  · cases hw

theorem Station.moveRoom_pair {x : Station} (h : x.moveRoom = true) : x.pair.length < 2 := by
  simp only [Station.moveRoom, Bool.and_eq_true, decide_eq_true_eq] at h
  exact h.1

/-- A recovery ends. -/
theorem Works.turns_endRecovery (w : Works) (st : St) :
    w.Turns st (w.endRecovery st) { w.gauge st with recovery := 0 } := by
  let w1 := w.upd st fun x => { x with recovery := none }
  let w2 := w1.upd st fun x => { x with activity := w1.workActivity st }
  have h1 : w.Turns st w1 { w.gauge st with recovery := 0 } :=
    (Works.Turns.refl st w).upd (fun g => { g with recovery := 0 }) (f := fun x => { x with recovery := none })
      fun x => rfl
  have h2 : w1.Quiet w2 := Works.quiet_upd rfl
  simp only [Works.endRecovery]
  split
  · exact h1.quiet h2
  · refine (h1.quiet h2).quiet (Works.quiet_upd ?_)
    simp only [Station.gauge, Station.recoveryWeight, Option.isSome_map]

theorem Works.quiet_modPass (w : Works) (st : St) (f : PassWork → PassWork) : w.Quiet (w.modPass st f) :=
  Works.quiet_upd (by simp only [Station.gauge, Station.recoveryWeight, Option.isSome_map])

theorem Works.traverseAct_lowers {w w' : Works} {st : St} {id n : Nat} {c : Contour} (h : (w.gauge st).phase = .active)
    (hr : (w.gauge st).recovery = 1) (hw : w.traverseAct st id c n = some w') : w.Lowers st w' := by
  have hlow : ∀ f, Gauge.weight { w.gauge st with recovery := 0 } f < (w.gauge st).weight f :=
    fun f => Gauge.lt_recovery h f (by omega)
  simp only [Works.traverseAct] at hw
  split at hw
  · rename_i hp
    have hpair : (w.gauge st).pair < 2 := Station.moveRoom_pair hp.2
    split at hw
    · obtain rfl := Option.some.inj hw
      exact (Works.turns_endRecovery w st).lowers (hlow _)
    · obtain rfl := Option.some.inj hw
      by_cases hn : n + 1 < (w.traverseList st id c).length
      · simp only [hn, if_true]
        refine Works.issue_lowers_quiet h (Works.quiet_upd ?_) hpair
        simp only [Station.gauge, Station.recoveryWeight]
        cases (w.station st).recovery <;> rfl
      · simp only [hn, if_false]
        exact Works.issue_lowers h (Works.turns_endRecovery w st) h hpair (Nat.le_of_lt (hlow _))
  · cases hw

theorem Works.recoveryAct_lowers {w w' : Works} {st : St} {id : Nat} {c : Contour} {r : Recovery}
    (h : (w.gauge st).phase = .active) (hr : (w.station st).recovery = some r)
    (hc : w.current? st = some (id, c)) (hp : c.prog.pendingFailure = none)
    (hw : w.recoveryAct st id c r = some w') : w.Lowers st w' := by
  have hpair : (w.station st).pair = [] → (w.gauge st).pair < 2 := fun hn => by simp [Works.gauge, Station.gauge, hn]
  have hrec : (w.gauge st).recovery = if r.step = .inKerf then 2 else 1 := by
    simp [Works.gauge, Station.gauge, Station.recoveryWeight, hr]
  simp only [Works.recoveryAct] at hw
  split at hw
  · rename_i hs
    split at hw
    · rename_i hn
      split at hw
      · obtain rfl := Option.some.inj hw
        refine Works.issue_lowers_quiet h ?_ (hpair hn)
        simp only [Works.modRecovery]
        refine (Works.quiet_upd ?_).trans (Works.quiet_upd rfl)
        simp [Station.gauge, Station.recoveryWeight, hr, hs]
      · obtain rfl := Option.some.inj hw
        refine ((Works.Turns.refl st w).upd (fun g => { g with recovery := 0 }) fun x => rfl).lowers ?_
        refine Gauge.lt_recovery h _ ?_
        rw [hrec]
        split <;> omega
    · cases hw
  · cases hw
  · split at hw
    · rename_i hn
      obtain rfl := Option.some.inj hw
      exact Works.issue_lowers_quiet h (.refl w) (hpair hn)
    · cases hw
  · split at hw
    · exact Works.threadAct_lowers h hw
    · rename_i he
      split at hw
      · obtain rfl := Option.some.inj hw
        refine Works.startEpisode_lowers h he hc hp fun _ => ⟨r, hr, ?_⟩
        assumption
      · cases hw
  · split at hw
    · exact Works.threadAct_lowers h hw
    · rename_i hs _ he
      split at hw
      · obtain rfl := Option.some.inj hw
        refine Works.startEpisode_lowers h he hc hp fun hk => ?_
        simp [hs] at hk
      · cases hw
  · rename_i hs
    exact Works.traverseAct_lowers h (by simp [hrec, hs]) hw

/-! ## The current contour -/

/-- A reservation request that is due is made. -/
theorem Works.dueRequest_lowers {w : Works} {st : St} {id : Nat} {c : Contour} (h : (w.gauge st).phase = .active)
    (hd : (w.station st).kerfRequest = .due) : w.Lowers st (w.dueRequest st id c) :=
  (((Works.Turns.refl st w).upd (fun g => { g with asking := false }) (f := fun x => { x with kerfRequest := .none })
    fun x => rfl).quiet (Works.quiet_requestReservation _ _ _ _)).lowers
      (Gauge.lt_asked h _ (by simp [Works.gauge, Station.gauge, hd]))

theorem Works.entrySteps_lowers {w w' : Works} {st : St} {id : Nat} {c : Contour} (h : (w.gauge st).phase = .active)
    (hpair : (w.gauge st).pair < 2) (he : (w.station st).tc.episode = none) (hc : w.current? st = some (id, c))
    (hp : c.prog.pendingFailure = none) (hw : w.entrySteps st id c = some w') : w.Lowers st w' := by
  simp only [Works.entrySteps] at hw
  split at hw
  · split at hw
    · obtain rfl := Option.some.inj hw
      exact Works.issue_lowers_quiet h (.refl w) hpair
    · split at hw
      · obtain rfl := Option.some.inj hw
        exact Works.issue_lowers_quiet h (.refl w) hpair
      · cases hw
  · obtain rfl := Option.some.inj hw
    exact Works.startEpisode_lowers h he hc hp (by simp)
  all_goals cases hw

theorem Works.entryAct_lowers {w w' : Works} {st : St} {id : Nat} {c : Contour} (h : (w.gauge st).phase = .active)
    (he : (w.station st).tc.episode = none) (hc : w.current? st = some (id, c)) (hp : c.prog.pendingFailure = none)
    (hw : w.entryAct st id c = some w') : w.Lowers st w' := by
  simp only [Works.entryAct] at hw
  split at hw
  · rename_i hn
    split at hw
    · cases hw
    · rename_i hd
      obtain rfl := Option.some.inj hw
      exact Works.dueRequest_lowers h hd
    · exact Works.entrySteps_lowers h (by simp [Works.gauge, Station.gauge, hn]) he hc hp hw
  · cases hw

theorem Works.mainAct_lowers {w w' : Works} {st : St} {id : Nat} {c : Contour} (h : (w.gauge st).phase = .active)
    (hw : w.mainAct st id c = some w') : w.Lowers st w' := by
  simp only [Works.mainAct] at hw
  split at hw
  · split at hw
    · split at hw
      · rename_i hn
        obtain rfl := Option.some.inj hw
        exact Works.issue_lowers_quiet h (Works.quiet_modContour fun _ => rfl) (Station.moveRoom_pair hn.2)
      · cases hw
    · split at hw
      · split at hw
        · rename_i hn
          obtain rfl := Option.some.inj hw
          exact Works.issue_lowers_quiet h (Works.quiet_modContour fun _ => rfl)
            (by simp [Works.gauge, Station.gauge, hn])
        · cases hw
      · split at hw
        · cases hw
        · rename_i e rest hq
          split at hw
          · rename_i hn
            obtain rfl := Option.some.inj hw
            have h1 : w.Quiet (w.modContour id fun c => c.record (e.toKerf .issued (some .forward))) :=
              Works.quiet_modContour fun _ => rfl
            have h2 := Works.turns_consumeHead (w.modContour id fun c => c.record (e.toKerf .issued (some .forward))) st
            rw [h1.1 st] at h2
            have hlen : (w.gauge st).queue.tail.length < (w.gauge st).queue.length := by
              simp [Works.gauge, Station.gauge, hq]
            exact Works.issue_lowers h ⟨h2.1, (h1.beside st).trans h2.2.1, h2.2.2.trans h1.2⟩ h
              (Station.moveRoom_pair hn.2.2.2)
              (Nat.le_of_lt (Gauge.lt_consume (cu := (w.gauge st).current) h _ hlen (Nat.le_refl _)))
          · cases hw
  · cases hw

theorem Works.passAct_lowers {w w' : Works} {st : St} {id : Nat} {c : Contour} {p : PassWork}
    (h : (w.gauge st).phase = .active) (he : (w.station st).tc.episode = none) (hc : w.current? st = some (id, c))
    (hp : c.prog.pendingFailure = none) (hw : w.passAct st id c p = some w') : w.Lowers st w' := by
  have hpair : (w.station st).pair = [] → (w.gauge st).pair < 2 := fun hn => by simp [Works.gauge, Station.gauge, hn]
  simp only [Works.passAct] at hw
  split at hw
  · split at hw
    · rename_i hn
      split at hw
      · obtain rfl := Option.some.inj hw
        exact Works.issue_lowers_quiet h (.refl w) (hpair hn)
      · obtain rfl := Option.some.inj hw
        exact Works.issue_lowers_quiet h (.refl w) (hpair hn)
    · cases hw
  · split at hw
    · obtain rfl := Option.some.inj hw
      exact Works.startEpisode_lowers h he hc hp (by simp)
    · cases hw
  · simp only [Works.approachAct] at hw
    split at hw
    · rename_i hn
      split at hw
      · obtain rfl := Option.some.inj hw
        exact Works.issue_lowers_quiet h (Works.quiet_modPass _ _ _) (Station.moveRoom_pair hn.2)
      · split at hw
        · cases hw
        · obtain rfl := Option.some.inj hw
          refine Works.issue_lowers_quiet h (.trans ?_ (Works.quiet_modPass _ _ _)) (Station.moveRoom_pair hn.2)
          exact Works.quiet_modContour fun _ => rfl
    · cases hw
  · cases hw

theorem Works.contourAct_lowers {w w' : Works} {st : St} {id : Nat} {c : Contour} (h : (w.gauge st).phase = .active)
    (hc : w.current? st = some (id, c)) (hw : w.contourAct st id c = some w') : w.Lowers st w' := by
  simp only [Works.contourAct] at hw
  split at hw
  · cases hw
  · rename_i hp
    have hp : c.prog.pendingFailure = none := by simpa using hp
    split at hw
    · rename_i r hr
      exact Works.recoveryAct_lowers h hr hc hp hw
    · split at hw
      · exact Works.threadAct_lowers h hw
      · rename_i he
        split at hw
        · exact Works.entryAct_lowers h he hc hp hw
        · exact Works.mainAct_lowers h hw
        · obtain ⟨p, -, hw⟩ := Option.bind_eq_some_iff.mp hw
          exact Works.passAct_lowers h he hc hp hw
        · simp only [Works.closingAct] at hw
          split at hw
          · split at hw
            · rename_i hn
              obtain rfl := Option.some.inj hw
              exact Works.issue_lowers_quiet h (.refl w) (by simp [Works.gauge, Station.gauge, hn.2])
            · cases hw
          · cases hw
        all_goals cases hw

/-! ## Between contours -/

theorem Works.turns_makeCurrent (w : Works) (st : St) (id : Nat) :
    w.Turns st (w.makeCurrent st id) { w.gauge st with current := some id, asking := false } := by
  have h1 : w.Quiet (w.modContour id fun c => c.setState .entering) := Works.quiet_modContour fun _ => rfl
  exact (h1.turns (st := st)).upd (fun g => { g with current := some id, asking := false })
    (f := fun x => { x with current := some id, activity := .entering, kerfRequest := .none }) fun x => rfl

/-- The contour of the head of the queue becomes current, its request made or not. -/
theorem Works.Turns.enters {w w' : Works} {st : St} {id : Nat} {c : Contour} {a : Bool}
    (ht : w.Turns st w' { w.gauge st with current := some id, asking := a }) (h : (w.gauge st).phase = .active)
    (hc : w.current? st = none) (hq : (w.gauge st).queue.head? = some id) (hct : w.contour? id = some c) :
    w.Lowers st w' := by
  refine ht.lowers (Gauge.lt_enter h _ (fun he => ?_) hq)
  have he : (w.station st).current = some id := he
  simp [Works.current?, he, hct] at hc

theorem Works.enterContour_lowers {w : Works} {st : St} {id : Nat} {c : Contour} (h : (w.gauge st).phase = .active)
    (hc : w.current? st = none) (hq : (w.gauge st).queue.head? = some id) (hct : w.contour? id = some c) :
    w.Lowers st (w.enterContour st id c) :=
  ((Works.turns_makeCurrent w st id).quiet (Works.quiet_requestReservation _ _ _ _)).enters h hc hq hct

theorem Works.turns_startPass (w : Works) (st : St) (t : PassTrigger) :
    w.Turns st (w.startPass st t) { w.gauge st with inPass := true } :=
  (Works.Turns.refl st w).upd (fun g => { g with inPass := true }) fun _ => rfl

/-- A free value is drawn. -/
theorem Works.quiet_draw (w : Works) : w.Quiet { w with freeCount := w.freeCount + 1 } := ⟨fun _ => rfl, rfl⟩

/-- The check of an entry that calls for no pass. -/
theorem Works.checkPassed_lowers {w : Works} {st : St} {id : Nat} {c : Contour} (h : (w.gauge st).phase = .active)
    (hc : w.current? st = none) (hq : (w.gauge st).queue.head? = some id) (hct : w.contour? id = some c) :
    w.Lowers st (w.checkPassed st id c) := by
  simp only [Works.checkPassed]
  refine (Works.quiet_draw w).lowers ?_
  split
  · exact Works.enterContour_lowers h hc hq hct
  · exact ((Works.turns_makeCurrent { w with freeCount := w.freeCount + 1 } st id).upd (fun g => { g with asking := true })
      (f := fun x => { x with kerfRequest := .held }) fun x => rfl).enters h hc hq hct

/-- The contour of the head of the queue begins its entry, or a pass starts over a list that is not empty. -/
theorem Works.beginEntry_lowers {w w' : Works} {st : St} {id : Nat} (h : (w.gauge st).phase = .active)
    (hc : w.current? st = none) (hp : (w.gauge st).inPass = false)
    (hq : (w.gauge st).queue.head? = some id) (hw : w.beginEntry st id = some w') : w.Lowers st w' := by
  obtain ⟨c, hct, rfl⟩ := Option.map_eq_some_iff.mp hw
  split
  · rename_i hf
    refine (Works.turns_startPass w st .forced).lowers (Gauge.lt_startPass h _ hp ?_)
    intro hd
    have hd : (w.station st).deferred = [] := List.length_eq_zero_iff.mp hd
    simp [Works.passForced, hd, Config.deferredSize] at hf
  · exact Works.checkPassed_lowers h hc hq hct

theorem Works.startPassContour_lowers {w : Works} {st : St} {id : Nat} {rest : List Nat}
    (h : (w.gauge st).phase = .active) (hp : (w.gauge st).inPass = true)
    (hd : (w.station st).deferred = id :: rest) : w.Lowers st (w.startPassContour st id rest) := by
  have hdg : (w.gauge st).deferred = rest.length + 1 := by simp [Works.gauge, Station.gauge, hd]
  have h1 : w.Turns st (w.upd st fun x => { x with deferred := rest }) { w.gauge st with deferred := rest.length } :=
    (Works.Turns.refl st w).upd (fun g => { g with deferred := rest.length }) fun x => rfl
  have hlow := h1.lowers (Gauge.lt_passContour (cu := (w.gauge st).current) h _ hp hdg)
  simp only [Works.startPassContour]
  split
  · exact hlow
  · split
    · rename_i t approach _ _
      have h2 : (w.upd st fun x => { x with deferred := rest }).Quiet
          ((w.upd st fun x => { x with deferred := rest }).modContour id fun c => c.setState .tabCutting) :=
        Works.quiet_modContour fun _ => rfl
      refine ((h1.quiet h2).upd (fun g => { g with current := some id }) (f := fun x =>
        { x with
          current := some id
          pass := x.pass.map fun r =>
            { r with work := some { contour := id, t := t, approach := approach, step := .travel, next := 0 } } })
        fun x => ?_).lowers (Gauge.lt_passContour h _ hp hdg)
      simp only [Station.gauge, Station.recoveryWeight, Option.isSome_map]
    all_goals exact hlow

theorem Works.Lowers.trans {st : St} {a b c : Works} (h : a.Turns st b (b.gauge st))
    (hg : (b.gauge st).weight a.unfailed ≤ (a.gauge st).weight a.unfailed) (h' : b.Lowers st c) : a.Lowers st c := by
  obtain ⟨-, hb, hu⟩ := h
  obtain ⟨h1, h2, h3⟩ := h'
  rw [hu] at h2 h3
  refine ⟨hb.trans h1, by omega, h3.imp (fun k id hi => ?_) fun k => by omega⟩
  have := k id hi
  rwa [hu] at this

theorem Works.endPass_lowers {w : Works} {st : St} {t : PassTrigger} (h : (w.gauge st).phase = .active)
    (hc : w.current? st = none) (hp : (w.gauge st).inPass = true) (hd : (w.station st).deferred = []) :
    w.Lowers st (w.endPass st t) := by
  have h1 : w.Turns st (w.upd st fun x => { x with pass := none, activity := .waiting })
      { w.gauge st with inPass := false } :=
    (Works.Turns.refl st w).upd (fun g => { g with inPass := false }) fun x => rfl
  have hlt := Gauge.lt_endPass h w.unfailed hp (by simp [Works.gauge, Station.gauge, hd])
  have hlow := h1.lowers hlt
  cases t with
  | tabs | endProgram => exact hlow
  | forced =>
    simp only [Works.endPass]
    split
    · rename_i e rest hq
      split
      · rename_i c hct
        have hg := h1.1
        refine Works.Lowers.trans (b := w.upd st fun x => { x with pass := none, activity := .waiting })
          ⟨rfl, h1.2.1, h1.2.2⟩ (by rw [hg]; exact Nat.le_of_lt hlt) ?_
        refine Works.enterContour_lowers (by rw [hg]; exact h) ?_ ?_ hct
        · rw [← hc]
          exact Works.current?_of_quiet_parts (by simp) rfl
        · rw [hg]
          simp [Works.gauge, Station.gauge, hq]
      · exact hlow
    · exact hlow

/-- A station that becomes IDLE has nothing left to do. -/
theorem Works.idle_lowers {w w' : Works} {st : St} (h : 8 ≤ (w.gauge st).weight w.unfailed) (hb : w.Beside st w')
    (hi : (w'.gauge st).phase = .idle) : w.Lowers st w' := by
  have h0 := Gauge.weight_idle hi w'.unfailed
  exact ⟨hb, by omega, .inr (by omega)⟩

theorem Gauge.weight_ge {g : Gauge} (h : g.phase = .active ∨ g.phase = .aborting) (f : Nat → Bool) :
    8 ≤ g.weight f := by
  rcases h with h | h
  · rw [Gauge.weight_active h]
    omega
  · rw [Gauge.weight_aborting h]
    omega

theorem Station.toIdle_phase (x : Station) : x.toIdle.gauge.phase = .idle := rfl

theorem Works.finishProgram_lowers {w : Works} {st : St} (h : (w.gauge st).phase = .active) (seq : Seq) :
    w.Lowers st (w.finishProgram st seq) := by
  refine Works.idle_lowers (Gauge.weight_ge (.inl h) _) ?_ ?_
  · simp only [Works.finishProgram]
    exact ((((Works.quiet_markReports _ _ _ _).beside st).trans (Works.beside_upd _ _ _)).trans
      ((Works.quiet_report _ _ _).beside st)).trans (Works.beside_upd _ _ _)
  · simp only [Works.finishProgram, Works.gauge_upd_same]
    rfl

theorem Works.turns_takeDirective (w : Works) (st : St) (e : QEntry) (a : Activity) :
    w.Turns st (w.takeDirective st e a) { w.gauge st with queue := (w.gauge st).queue.tail } :=
  (Works.turns_consumeHead w st).quiet (Works.quiet_upd rfl)

theorem Works.headStarts_lowers {w w' : Works} {st : St} {e : QEntry} {rest : List QEntry}
    (h : (w.gauge st).phase = .active) (hc : w.current? st = none) (hp : (w.gauge st).inPass = false)
    (hq : (w.station st).adm.queue = e :: rest) (hw : w.headStarts st e = some w') : w.Lowers st w' := by
  have hlen : (w.gauge st).queue.tail.length < (w.gauge st).queue.length := by simp [Works.gauge, Station.gauge, hq]
  unfold Works.headStarts at hw
  split at hw
  iterate 3
    · split at hw
      · exact Works.beginEntry_lowers h hc hp (by simp [Works.gauge, Station.gauge, hq]) hw
      · cases hw
  · obtain rfl := Option.some.inj hw
    have h1 := (Works.turns_consumeHead w st).quiet (Works.quiet_markReport? (w.consumeHead st) st e.mark .done)
    simp only [Works.tabsAct]
    split
    · exact (h1.quiet (Works.quiet_upd rfl)).lowers (Gauge.lt_consume_pass (b := (w.gauge st).inPass) h _ hlen id)
    · exact (h1.upd (fun g => { g with inPass := true }) (f := fun x =>
        { x with pass := some { trigger := .tabs, work := none }, activity := .tabPass }) fun x => rfl).lowers
          (Gauge.lt_consume_pass h _ hlen fun _ => rfl)
  · obtain rfl := Option.some.inj hw
    have h1 : w.Turns st ((w.takeDirective st e .waiting).upd st fun x => { x with endProgram := some e.seq })
        { w.gauge st with queue := (w.gauge st).queue.tail } :=
      (Works.turns_takeDirective w st e .waiting).quiet (Works.quiet_upd rfl)
    simp only [Works.endProgramAct]
    split
    · exact h1.lowers (Gauge.lt_consume_pass (b := (w.gauge st).inPass) h _ hlen id)
    · exact (h1.upd (fun g => { g with inPass := true }) (f := fun x =>
        { x with pass := some { trigger := .endProgram, work := none }, activity := .tabPass }) fun x => rfl).lowers
          (Gauge.lt_consume_pass h _ hlen fun _ => rfl)
  all_goals cases hw

theorem Works.headAct_lowers {w w' : Works} {st : St} {e : QEntry} {rest : List QEntry}
    (h : (w.gauge st).phase = .active) (hc : w.current? st = none) (hp : (w.gauge st).inPass = false)
    (hq : (w.station st).adm.queue = e :: rest) (hw : w.headAct st e = some w') : w.Lowers st w' := by
  have hpair : (w.station st).pair = [] → (w.gauge st).pair < 2 := fun hn => by simp [Works.gauge, Station.gauge, hn]
  have hlen : (w.gauge st).queue.tail.length < (w.gauge st).queue.length := by simp [Works.gauge, Station.gauge, hq]
  have htake : ∀ a, w.Turns st (w.takeDirective st e a) { w.gauge st with queue := (w.gauge st).queue.tail } :=
    Works.turns_takeDirective w st e
  have hle := Nat.le_of_lt (Gauge.lt_consume_pass (b := (w.gauge st).inPass) h w.unfailed hlen id)
  simp only [Works.headAct] at hw
  split at hw
  · simp only [Works.travelAct] at hw
    split at hw
    · split at hw
      · rename_i hn
        obtain rfl := Option.some.inj hw
        exact Works.issue_lowers h (htake .travelling) h (Station.moveRoom_pair hn) hle
      · cases hw
    iterate 2
      · split at hw
        · rename_i hn
          obtain rfl := Option.some.inj hw
          exact Works.issue_lowers_quiet h (Works.quiet_upd rfl) (hpair hn)
        · cases hw
    · cases hw
  · split at hw
    · rename_i hn
      obtain rfl := Option.some.inj hw
      exact Works.issue_lowers h (htake .dwelling) h (hpair hn) hle
    · cases hw
  all_goals
    split at hw
    · exact Works.headStarts_lowers h hc hp hq hw
    · cases hw

theorem Works.idleAct_lowers {w w' : Works} {st : St} (h : (w.gauge st).phase = .active)
    (hc : w.current? st = none) (hw : w.idleAct st = some w') : w.Lowers st w' := by
  have hpair : (w.station st).pair = [] → (w.gauge st).pair < 2 := fun hn => by simp [Works.gauge, Station.gauge, hn]
  simp only [Works.idleAct] at hw
  split at hw
  · rename_i hd
    have h1 : w.Turns st (w.upd st fun x => { x with failureCutDue := false }) { w.gauge st with cutDue := false } :=
      (Works.Turns.refl st w).upd (fun g => { g with cutDue := false }) fun _ => rfl
    have hlt := Gauge.lt_cutDue h w.unfailed hd
    split at hw
    · rename_i hn
      split at hw
      · obtain rfl := Option.some.inj hw
        exact h1.lowers hlt
      · obtain rfl := Option.some.inj hw
        exact Works.issue_lowers h h1 h (hpair hn) (Nat.le_of_lt hlt)
    · cases hw
  · split at hw
    · rename_i r hr
      have hp : (w.gauge st).inPass = true := by simp [Works.gauge, Station.gauge, hr]
      split at hw
      · split at hw
        · rename_i id rest hd
          obtain rfl := Option.some.inj hw
          exact Works.startPassContour_lowers h hp hd
        · rename_i hd
          obtain rfl := Option.some.inj hw
          exact Works.endPass_lowers h hc hp hd
      · cases hw
    · rename_i hr
      have hp : (w.gauge st).inPass = false := by simp [Works.gauge, Station.gauge, hr]
      split at hw
      · split at hw
        · obtain rfl := Option.some.inj hw
          exact Works.finishProgram_lowers h _
        · cases hw
      · split at hw
        · cases hw
        · rename_i e rest hq
          exact Works.headAct_lowers h hc hp hq hw

/-! ## One action -/

theorem Works.reissue_lowers {w w' : Works} {st : St} {r : Returned} {rest : List Returned}
    (h : (w.gauge st).phase = .active) (hw : w.reissue st r rest = some w') : w.Lowers st w' := by
  simp only [Works.reissue] at hw
  split at hw
  · rename_i hr
    obtain rfl := Option.some.inj hw
    refine Works.issue_lowers_quiet h (Works.quiet_upd ?_) ?_
    · cases r.body <;> rfl
    · unfold Station.room at hr
      split at hr
      · simp only [List.isEmpty_iff] at hr
        simp [Works.gauge, Station.gauge, hr]
      · exact Station.moveRoom_pair hr
  · cases hw

theorem Works.awaitingContourAct_lowers {w w' : Works} {st : St} {id : Nat} {c : Contour}
    (h : (w.gauge st).phase = .active) (hc : w.current? st = some (id, c))
    (hw : w.awaitingContourAct st id c = some w') : w.Lowers st w' := by
  obtain ⟨ha, hw⟩ := Option.ite_none_right_eq_some.mp hw
  have key : w.Lowers st (w.startEpisode st .startHole id c) := Works.startEpisode_lowers h ha.2 hc ha.1 (by simp)
  split at hw
  · obtain ⟨-, hw⟩ := Option.ite_none_right_eq_some.mp hw
    obtain rfl := Option.some.inj hw
    exact key
  · obtain ⟨-, hw⟩ := Option.ite_none_right_eq_some.mp hw
    split at hw
    · cases hw
    · rename_i hd
      obtain rfl := Option.some.inj hw
      exact Works.dueRequest_lowers h hd
    · obtain ⟨-, hw⟩ := Option.ite_none_right_eq_some.mp hw
      obtain rfl := Option.some.inj hw
      exact key

theorem Works.awaitingAct_lowers {w w' : Works} {st : St} (h : (w.gauge st).phase = .active)
    (hw : w.awaitingAct st = some w') : w.Lowers st w' := by
  simp only [Works.awaitingAct] at hw
  split at hw
  · split at hw
    · rename_i id c hc
      exact Works.awaitingContourAct_lowers h hc hw
    · rename_i hc
      split at hw
      · cases hw
      · rename_i hp
        have hp : (w.gauge st).inPass = false := by
          simp only [not_or, Bool.not_eq_true] at hp
          exact hp.2
        split at hw
        · obtain rfl := Option.some.inj hw
          exact Works.finishProgram_lowers h _
        · split at hw
          · cases hw
          · rename_i e rest hq
            exact Works.headStarts_lowers h hc hp hq hw
  · cases hw

theorem Works.beside_discardQueue (w : Works) (st : St) : w.Beside st (w.discardQueue st) := by
  have h1 := ((Works.quiet_markReports w st (w.station st).directiveMarks .discarded).beside st).trans
    (Works.beside_upd _ st fun x => { x with directiveMarks := [] })
  simp only [Works.discardQueue]
  split
  · exact h1
  · exact ((h1.trans ((Works.quiet_markReports _ st _ .discarded).beside st)).trans (Works.beside_upd _ _ _)).trans
      ((Works.quiet_progressUpdate _ _).beside st)

theorem Works.beside_abortContours (st : St) (ids : List Nat) (acc : Works × Nat × Nat) :
    acc.1.Beside st (ids.foldl (Works.abortContour st) acc).1 := by
  induction ids generalizing acc with
  | nil => exact .refl st _
  | cons id ids ih =>
    refine .trans ?_ (ih _)
    unfold Works.abortContour
    split
    · exact .refl st _
    · split
      · exact (Works.beside_modContour acc.1 st id _).trans ((Works.quiet_release _ id).beside st)
      · exact .refl st _

theorem Works.clearProgram_lowers {w : Works} {st : St} (h : (w.gauge st).phase = .aborting) :
    w.Lowers st (w.clearProgram st) := by
  refine Works.idle_lowers (Gauge.weight_ge (.inr h) _) ?_ ?_
  · simp only [Works.clearProgram]
    exact ((((Works.beside_discardQueue w st).trans (Works.beside_upd _ _ _)).trans
      (Works.beside_abortContours st _ (_, 0, 0))).trans ((Works.quiet_report _ _ _).beside st)).trans
        (Works.beside_upd _ _ _)
  · simp only [Works.clearProgram, Works.gauge_upd_same]
    rfl

theorem Works.teardownAct_lowers {w w' : Works} {st : St} (h : (w.gauge st).phase = .aborting)
    (hw : w.teardownAct st = some w') : w.Lowers st w' := by
  simp only [Works.teardownAct] at hw
  split at hw
  · rename_i hn
    have key : (w.gauge st).wired = true → w.Lowers st (w.issue st (.wireCut .teardown) fun w => w) := by
      intro hwired
      have h9 : (w.gauge st).weight w.unfailed = 9 := by
        rw [Gauge.weight_aborting h]
        have : (w.gauge st).pair = 0 := by simp [Works.gauge, Station.gauge, hn.1]
        simp [this, hwired]
      unfold Works.issue
      split
      · refine ((Works.Turns.refl st w).upd (fun g => { g with pair := g.pair + 1 }) fun x => by
          simp [Station.gauge, Station.push, Station.recoveryWeight]).lowers ?_
        have h1 : Gauge.phase { w.gauge st with pair := (w.gauge st).pair + 1 } = .aborting := h
        rw [Gauge.weight_aborting h1, h9]
        simp
      · obtain ⟨a, b, c, d⟩ := Works.driveLoss_gauge w st (by rw [h]; simp)
        refine ⟨a, ?_, .inl fun id hi => by rwa [d h] at hi⟩
        rw [h9, Gauge.weight_aborting b, c]
        simp
    split at hw
    · rename_i hx
      obtain rfl := Option.some.inj hw
      exact key (by simp [Works.gauge, Station.gauge, hx])
    · rename_i hx
      obtain rfl := Option.some.inj hw
      exact key (by simp [Works.gauge, Station.gauge, hx])
    · obtain rfl := Option.some.inj hw
      exact Works.clearProgram_lowers h
    · obtain rfl := Option.some.inj hw
      exact Works.clearProgram_lowers h
  · cases hw

/-- Every action of a station lowers what it has left, and frees the other stations' contours of no failure unless it
lowers it by as much. -/
theorem Works.act_lowers {w w' : Works} {st : St} (hw : w.act st = some w') : w.Lowers st w' := by
  unfold Works.act at hw
  have hph : ∀ s, (w.station st).state = s → (w.gauge st).phase = s.phase := fun s hs => by
    simp [Works.gauge, Station.gauge, hs]
  split at hw
  · cases hw
  · rename_i hs
    have h : (w.gauge st).phase = .active := hph _ hs
    unfold Works.activeAct at hw
    split at hw
    · rename_i hi
      obtain rfl := Option.some.inj hw
      exact Works.intakeAct_lowers h hi
    · dsimp only at hw
      split at hw
      · exact Works.awaitingAct_lowers h hw
      · split at hw
        · exact Works.reissue_lowers h hw
        · split at hw
          · rename_i id c hc
            exact Works.contourAct_lowers h hc hw
          · rename_i hc
            exact Works.idleAct_lowers h hc hw
  · rename_i hs
    exact Works.intakeAct_lowers (hph _ hs) hw
  · rename_i hs
    exact Works.teardownAct_lowers (hph _ hs) hw

/-! ## Settling -/

theorem Works.actionsLeft_eq (w : Works) :
    w.actionsLeft = (w.gauge 0).weight w.unfailed + (w.gauge 1).weight w.unfailed + (w.gauge 2).weight w.unfailed
      + (w.gauge 3).weight w.unfailed := by
  simp [Works.actionsLeft, PerStation.toList, Station.weight_gauge, Works.gauge, Works.station, PerStation.get,
    Nat.add_assoc]

/-- An action lowers the number of actions left. -/
theorem Works.Lowers.actionsLeft {w w' : Works} {st : St} (h : w.Lowers st w') : w'.actionsLeft < w.actionsLeft := by
  obtain ⟨h1, h2, h3⟩ := h
  rw [Works.actionsLeft_eq, Works.actionsLeft_eq]
  have one : ∀ j ≠ st, (w'.gauge j).weight w'.unfailed ≤ (w.gauge j).weight w.unfailed + 1 := by
    intro j hj
    rw [h1 j hj]
    exact Gauge.weight_le_succ _ _ _
  have zero : w.Kept w' → ∀ j ≠ st, (w'.gauge j).weight w'.unfailed ≤ (w.gauge j).weight w.unfailed := by
    intro hk j hj
    rw [h1 j hj]
    exact Gauge.weight_mono _ hk
  match st, h2, h3, one, zero with
  | 0, h2, h3, one, zero =>
    have a := one 1 (by decide); have b := one 2 (by decide); have c := one 3 (by decide)
    rcases h3 with h3 | h3
    · have a := zero h3 1 (by decide); have b := zero h3 2 (by decide); have c := zero h3 3 (by decide)
      omega
    · omega
  | 1, h2, h3, one, zero =>
    have a := one 0 (by decide); have b := one 2 (by decide); have c := one 3 (by decide)
    rcases h3 with h3 | h3
    · have a := zero h3 0 (by decide); have b := zero h3 2 (by decide); have c := zero h3 3 (by decide)
      omega
    · omega
  | 2, h2, h3, one, zero =>
    have a := one 0 (by decide); have b := one 1 (by decide); have c := one 3 (by decide)
    rcases h3 with h3 | h3
    · have a := zero h3 0 (by decide); have b := zero h3 1 (by decide); have c := zero h3 3 (by decide)
      omega
    · omega
  | 3, h2, h3, one, zero =>
    have a := one 0 (by decide); have b := one 1 (by decide); have c := one 2 (by decide)
    rcases h3 with h3 | h3
    · have a := zero h3 0 (by decide); have b := zero h3 1 (by decide); have c := zero h3 2 (by decide)
      omega
    · omega

/-- The next action, if there is one, lowers the number of actions left. -/
theorem Works.nextAct_lt {w w' : Works} {st : St} (h : w.nextAct st = some w') : w'.actionsLeft < w.actionsLeft := by
  obtain ⟨j, -, hj⟩ := List.exists_of_findSome?_eq_some h
  exact (Works.act_lowers hj).actionsLeft

/-- As much fuel as there are actions left is enough. -/
theorem Works.settleFor_enough (st : St) :
    ∀ (n m : Nat) (w : Works), w.actionsLeft ≤ n → w.actionsLeft ≤ m → Works.settleFor n st w = Works.settleFor m st w := by
  intro n
  induction n with
  | zero =>
    intro m w hn _
    cases m with
    | zero => rfl
    | succ m =>
      cases h : w.nextAct st with
      | none => simp [Works.settleFor, h]
      | some w' =>
        have := Works.nextAct_lt h
        omega
  | succ n ih =>
    intro m w hn hm
    cases h : w.nextAct st with
    | none => cases m <;> simp [Works.settleFor, h]
    | some w' =>
      have hlt := Works.nextAct_lt h
      cases m with
      | zero => omega
      | succ m =>
        simp only [Works.settleFor, h]
        exact ih m w' (by omega) (by omega)

/-- A run when no station has an action. -/
theorem Works.run_of_none {w : Works} {st : St} (h : w.nextAct st = none) : w.run st = w := by
  unfold Works.run
  cases w.actionsLeft <;> simp [Works.settleFor, h]

/-- A run begins with the next action. -/
theorem Works.run_of_some {w w' : Works} {st : St} (h : w.nextAct st = some w') : w.run st = w'.run st := by
  have hlt := Works.nextAct_lt h
  unfold Works.run
  obtain ⟨n, hn⟩ : ∃ n, w.actionsLeft = n + 1 := ⟨w.actionsLeft - 1, by omega⟩
  rw [hn]
  simp only [Works.settleFor, h]
  exact Works.settleFor_enough st _ _ _ (by omega) (Nat.le_refl _)

/-- The event's station acts before any other. -/
theorem Works.nextAct_of_act {w w' : Works} {st : St} (h : w.act st = some w') : w.nextAct st = some w' := by
  simp [Works.nextAct, h]

/-- No next action: no station has one. -/
theorem Works.nextAct_eq_none {w : Works} {st : St} : w.nextAct st = none ↔ ∀ j, w.act j = none := by
  have hall : ∀ j : St, j ∈ st :: rotation st := by
    revert st
    decide
  simp only [Works.nextAct, List.findSome?_eq_none_iff]
  exact ⟨fun h j => h j (hall j), fun h j _ => h j⟩

/-! ### The requests that are held -/

@[simp] theorem Works.station_requestsDue (w : Works) (st : St) :
    w.requestsDue.station st = (w.station st).requestDue := by simp [Works.requestsDue, Works.station]

@[simp] theorem Works.contours_requestsDue (w : Works) : w.requestsDue.contours = w.contours := rfl
@[simp] theorem Works.contour?_requestsDue (w : Works) (id : Nat) : w.requestsDue.contour? id = w.contour? id := rfl
@[simp] theorem Works.pool_requestsDue (w : Works) : w.requestsDue.pool = w.pool := rfl
@[simp] theorem Works.time_requestsDue (w : Works) : w.requestsDue.time = w.time := rfl
@[simp] theorem Works.notices_requestsDue (w : Works) : w.requestsDue.notices = w.notices := rfl

theorem Station.requestDue_of_ne {x : Station} (h : x.kerfRequest ≠ .held) : x.requestDue = x := by
  simp [Station.requestDue, h]

/-- With no request held, an event makes none due. -/
theorem Works.requestsDue_self {w : Works} (h : ∀ j, (w.station j).kerfRequest ≠ .held) : w.requestsDue = w := by
  have hs : (PerStation.ofStations fun st => (w.station st).requestDue) = w.stations := by
    have hf : (fun st => (w.station st).requestDue) = fun st => w.stations.get st := by
      funext j
      exact Station.requestDue_of_ne (h j)
    rw [hf]
    cases w.stations
    rfl
  unfold Works.requestsDue
  rw [hs]

/-- What settling ends in is what an event of the station leads to: an invariant of every action, and of requests that fall
due, holds after it. -/
theorem Works.settle_keeps {P : Works → Prop} (hdue : ∀ w, P w → P w.requestsDue)
    (hact : ∀ w w' j, P w → w.act j = some w' → P w') {w : Works} (st : St) (h : P w) : P (w.settle st) := by
  unfold Works.settle Works.run
  replace h := hdue w h
  generalize w.requestsDue.actionsLeft = n
  generalize w.requestsDue = v at h ⊢
  induction n generalizing v with
  | zero => exact h
  | succ n ih =>
    simp only [Works.settleFor]
    split
    · exact h
    · rename_i w' hw
      obtain ⟨j, -, hj⟩ := List.exists_of_findSome?_eq_some hw
      exact ih _ (hact v w' j h hj)

/-- Settling ends where no station has an action. -/
theorem Works.settle_ends (w : Works) (st j : St) : (w.settle st).act j = none := by
  suffices h : ∀ n (w : Works), w.actionsLeft ≤ n → (Works.settleFor n st w).nextAct st = none from
    Works.nextAct_eq_none.mp (h _ w.requestsDue (Nat.le_refl _)) j
  intro n
  induction n with
  | zero =>
    intro w hn
    cases h : w.nextAct st with
    | none => simp [Works.settleFor, h]
    | some w' =>
      have := Works.nextAct_lt h
      omega
  | succ n ih =>
    intro w hn
    cases h : w.nextAct st with
    | none => simp [Works.settleFor, h]
    | some w' =>
      have := Works.nextAct_lt h
      simp only [Works.settleFor, h]
      exact ih w' (by omega)

end Sys2Proof.Machine
end

