-- ==== Sys2Proof/Laws/Slots.lean ====
section
/-! SUPPORT. What the operations of the Kerf Record Store do to the sum of free and reserved slots (R81), that the arbiter's
rounds serve every station it can, and that a kerf record stays in ordinal order (R85). -/

namespace Sys2Proof.Machine

/-- A change of one record of a table, seen through a number of each record. -/
theorem tableModify_sum {α : Type} (n : α → Nat) (f : α → α) (k : Nat) :
    ∀ (t : List (Nat × α)) (a : α), tableFind t k = some a →
      ((tableModify t k f).map fun p => n p.2).sum + n a = (t.map fun p => n p.2).sum + n (f a)
  | [], _, h => by cases h
  | (j, b) :: t, a, h => by
    by_cases hj : j = k
    · have hb : b = a := by simpa [tableFind, hj] using h
      simp only [tableModify, hj, if_true, List.map_cons, List.sum_cons, hb]
      omega
    · have ih := tableModify_sum n f k t a (by simpa [tableFind, hj] using h)
      simp only [tableModify, hj, if_false, List.map_cons, List.sum_cons]
      omega

theorem tableModify_of_none {α : Type} (f : α → α) (k : Nat) :
    ∀ t : List (Nat × α), tableFind t k = none → tableModify t k f = t
  | [], _ => rfl
  | (j, b) :: t, h => by
    by_cases hj : j = k
    · simp [tableFind, hj] at h
    · simp only [tableModify, hj, if_false, tableModify_of_none f k t (by simpa [tableFind, hj] using h)]

/-- A change of a contour that leaves its reservation leaves the sum. -/
theorem Works.slots_modContour {w : Works} {id : Nat} {f : Contour → Contour}
    (h : ∀ c, (f c).prog.reservation = c.prog.reservation) : (w.modContour id f).slots = w.slots := by
  cases hc : w.contour? id with
  | none => simp only [Works.slots, Works.modContour, tableModify_of_none f id w.contours hc]
  | some c =>
    have hs := tableModify_sum (fun c : Contour => c.prog.reservation) f id w.contours c hc
    simp only [Works.slots, Works.modContour]
    rw [h c] at hs
    omega

@[simp] theorem Works.slots_upd (w : Works) (st : St) (f : Station → Station) : (w.upd st f).slots = w.slots := rfl

@[simp] theorem Works.slots_raise (w : Works) (n : Nat) : (w.raise n).slots = w.slots := rfl

@[simp] theorem Works.slots_report (w : Works) (st : St) (b : ReportBody) : (w.report st b).slots = w.slots := by
  simp [Works.slots]

@[simp] theorem Works.slots_markReports (w : Works) (st : St) (ms : List MarkRef) (o : MarkOutcome) :
    (w.markReports st ms o).slots = w.slots := by
  simp [Works.slots]

/-- A grant within the free slots keeps the sum (R86, R90). -/
theorem Works.slots_grant {w : Works} {id : Nat} {c : Contour} (st : St) {need : Nat} (h : w.contour? id = some c)
    (hn : need ≤ w.pool.free) : (w.grant st id need).slots = w.slots := by
  have hs := tableModify_sum (fun c : Contour => c.prog.reservation)
    (fun c => { c with prog := { c.prog with reservation := need } }) id w.contours c h
  have hr : w.reservedFor id = c.prog.reservation := by simp [Works.reservedFor, h]
  dsimp only at hs
  simp only [Works.slots, Works.grant, Works.modContour, hr]
  omega

theorem Works.isEntering_some {w : Works} {id : Nat} (h : w.isEntering id = true) :
    ∃ c, w.contour? id = some c ∧ c.state = .entering := by
  unfold Works.isEntering at h
  cases hc : w.contour? id with
  | none => simp [hc] at h
  | some c => exact ⟨c, rfl, by simpa [hc] using h⟩

/-- The rounds of the arbiter keep the sum (R90). -/
theorem Works.slots_arbiterRounds (n : Nat) (w : Works) : (Works.arbiterRounds n w).slots = w.slots :=
  Works.arbiterRounds_keeps (P := fun v => v.slots = w.slots)
    (fun v g r hv _ hn he => by
      obtain ⟨c, hc, -⟩ := Works.isEntering_some he
      rw [Works.slots_upd, Works.slots_grant g hc hn, hv]) n w rfl

/-- A release keeps the sum (R88). -/
theorem Works.slots_release (w : Works) (id : Nat) : (w.release id).slots = w.slots := by
  simp only [Works.release]
  split
  · rfl
  · rename_i c hc
    split
    · rfl
    · rw [Works.slots_arbiterRounds]
      have hm : (w.markReports c.cfg.station (c.kerf.filterMap (KerfEntry.mark id)) .discarded).contours = w.contours :=
        Works.markReports_contours _ _ _ _
      have hs := tableModify_sum (fun c : Contour => c.prog.reservation)
        (fun c => { c with kerf := [], prog := { c.prog with reservation := 0 } }) id w.contours c hc
      dsimp only at hs
      simp only [Works.slots, Works.modContour, hm, Works.markReports_pool]
      omega

/-- A reservation request of a contour in the table keeps the sum (R86). -/
theorem Works.slots_requestReservation {w : Works} {id : Nat} {c : Contour} (st : St) (need : Nat)
    (h : w.contour? id = some c) : (w.requestReservation st id need).slots = w.slots := by
  simp only [Works.requestReservation]
  split
  · rename_i hn
    exact Works.slots_grant st h hn
  · rw [Works.slots_raise, Works.slots_report]
    rfl

/-! ## The arbiter serves until no need fits (R90) -/

theorem mem_rotation (k g : St) : g ∈ rotation k := by
  revert k g
  decide

/-- With no round left to take, no waiting station's need fits (R89, R90). -/
theorem Works.arbiterRound_none {w : Works} (h : w.arbiterRound = none) {g : St} {r : Waiting}
    (hg : w.pool.waiting.get g = some r) (he : w.isEntering r.contour = true) : w.pool.free < r.need := by
  simp only [Works.arbiterRound, List.findSome?_eq_none_iff] at h
  have := h g (mem_rotation _ g)
  simp only [hg] at this
  by_cases hh : r.need ≤ w.pool.free
  · simp [hh, he] at this
  · omega

/-- How many stations wait for the store. -/
def Works.waitingCount (w : Works) : Nat := ([0, 1, 2, 3] : List St).countP fun g => (w.pool.waiting.get g).isSome

theorem Works.waitingCount_grant (w : Works) (g : St) (id need : Nat) (f : Station → Station)
    (h : (w.pool.waiting.get g).isSome = true) : ((w.grant g id need).upd g f).waitingCount < w.waitingCount := by
  have hj : ∀ j, ((w.grant g id need).upd g f).pool.waiting.get j = if j = g then none else w.pool.waiting.get j := by
    intro j
    change (w.pool.waiting.set g none).get j = _
    by_cases hj : j = g
    · subst hj
      simp [PerStation.set]
    · rw [if_neg hj, PerStation.set, PerStation.get_modify_other _ _ _ _ hj]
  simp only [Works.waitingCount, List.countP_cons, List.countP_nil, hj]
  revert h
  match g with
  | 0 => intro h; simp [h]
  | 1 => intro h; simp [h]
  | 2 => intro h; simp [h]
  | 3 => intro h; simp [h]

theorem Works.waitingCount_le (w : Works) : w.waitingCount ≤ 4 := List.countP_le_length

/-- Four rounds are enough: after them no need fits (R90). -/
theorem Works.arbiterRounds_served (n : Nat) (w : Works) (h : w.waitingCount ≤ n) :
    (Works.arbiterRounds n w).arbiterRound = none := by
  induction n generalizing w with
  | zero =>
    simp only [Works.arbiterRounds]
    cases hr : w.arbiterRound with
    | none => rfl
    | some w' =>
      obtain ⟨g, r, hg, -, -, hw⟩ := Works.arbiterRound_some hr
      have := Works.waitingCount_grant w g r.contour r.need (fun x => { x with activity := .entering }) (by simp [hg])
      omega
  | succ n ih =>
    simp only [Works.arbiterRounds]
    cases hr : w.arbiterRound with
    | none => exact hr
    | some w' =>
      obtain ⟨g, r, hg, -, -, hw⟩ := Works.arbiterRound_some hr
      have := Works.waitingCount_grant w g r.contour r.need (fun x => { x with activity := .entering }) (by simp [hg])
      exact ih _ (by rw [hw]; omega)

/-! ## The order of a kerf record (R85) -/

/-- Recording an entry adds that entry and nothing else. -/
theorem kerfInsert_perm (e : KerfEntry) : ∀ l, (kerfInsert e l).Perm (e :: l)
  | [] => .refl _
  | o :: l => by
    unfold kerfInsert
    split
    · exact .refl _
    · exact ((kerfInsert_perm e l).cons o).trans (.swap ..)

/-- Recording an entry keeps the order. -/
theorem Contour.kerfLaw_record {c : Contour} (h : c.kerfLaw) (e : KerfEntry) : (c.record e).kerfLaw := by
  unfold Contour.kerfLaw Contour.record at *
  dsimp only
  generalize c.kerf = l at h
  induction l with
  | nil => simp [kerfInsert]
  | cons o l ih =>
    obtain ⟨h1, h2⟩ := List.pairwise_cons.mp h
    unfold kerfInsert
    split
    · refine List.pairwise_cons.mpr ⟨fun q hq => ?_, h⟩
      rcases List.mem_cons.mp hq with rfl | hq
      · assumption
      · have := h1 q hq
        omega
    · refine List.pairwise_cons.mpr ⟨fun q hq => ?_, ih h2⟩
      rcases List.mem_cons.mp ((kerfInsert_perm e l).mem_iff.mp hq) with rfl | hq
      · omega
      · exact h1 q hq

/-- A change of an entry that leaves its ordinal keeps the order. -/
theorem Contour.kerfLaw_modEntry {c : Contour} (h : c.kerfLaw) (k : Nat) {f : KerfEntry → KerfEntry}
    (hf : ∀ e, (f e).ordinal = e.ordinal) : (c.modEntry k f).kerfLaw := by
  have ho : ∀ e : KerfEntry, (if e.ordinal = k then f e else e).ordinal = e.ordinal := by
    intro e
    split
    · exact hf e
    · rfl
  unfold Contour.kerfLaw Contour.modEntry at *
  exact List.pairwise_map.mpr (h.imp fun {a b} hab => by rw [ho, ho]; exact hab)

end Sys2Proof.Machine
end

