-- ==== Sys2Proof/Tests/Slice0.lean ====
section
/-! SUPPORT. Tests: ill-formed commands that the check refuses, worked values of the manual, one step of some commands, and
for each statement with hypotheses a state and operands that meet them, clause by clause. -/

namespace Sys2Proof.Tests

open Sys2Proof Sys2Proof.Machine

/-! ## Ill-formed commands -/

/-- A path frame with this many bytes after its fixed ones. -/
def longPath (n : Nat) : PathFrame where
  station := 0
  tag := 1
  seq := 0
  kind := 0
  flags := 1
  contour := 1
  ordinal := 1
  length := 1
  feed := 0
  rest := List.replicate n 0

/-- A management frame with this many argument bytes. -/
def longMgmt (n : Nat) : MgmtFrame where
  authority := 0
  tn := 1
  unit := 0
  request := 0
  args := List.replicate n 0

theorem longMgmt_wf (n : Nat) : (longMgmt n).wf = decide (n ≤ 56) := by
  unfold MgmtFrame.wf longMgmt
  rw [List.length_replicate]

theorem test_wf_refuses_a_path_body_over_sixty_bytes :
    (Instr.pathFrame (longPath 48)).wf = false ∧ (Instr.pathFrame (longPath 47)).wf = true := by decide

theorem test_wf_refuses_a_mgmt_body_over_sixty_bytes :
    (Instr.mgmtFrame (longMgmt 57)).wf = false ∧ (Instr.mgmtFrame (longMgmt 56)).wf = true :=
  ⟨longMgmt_wf 57, longMgmt_wf 56⟩

set_option maxRecDepth 20000 in
theorem test_frame_check_of_the_nine_digits :
    frameCheck [0x31, 0x32, 0x33, 0x34, 0x35, 0x36, 0x37, 0x38, 0x39] = 0x29B1 := by decide

/-! ## States -/

/-- What a command that answers a next state leads to. -/
def after (c : Instr) (s : State) : State :=
  match exec c s with
  | .next t => t
  | .fault _ => s
  | .refused _ => s

/-- The machine after reset with its station 0 changed. -/
def on (f : Station → Station) : State := State.reset.onWorks fun w => w.upd 0 f

/-- A program that is OPEN. -/
def prog : Program where
  tag := 1
  first := 0
  expected := 0
  consumed := 0xFFFF
  closed := false

/-- An ACTIVE station with a program. -/
def Station.start (x : Station) : Station :=
  { x with state := .active, adm := { x.adm with program := some prog } }

/-- Station 0 is ACTIVE. -/
def active : State := on Station.start

/-- Station 0 is HELD for these reasons. -/
def held (h : Holds) : State := on fun x => { Station.start x with state := .held, holds := h }

/-- A contour of station 0 in this state, with two segments. -/
def contour (s : ContourState) : Contour where
  state := s
  cfg :=
    { station := 0, threadX := 0, threadY := 0, segments := 2, leadIn := 1, inKerf := true, breakLimit := 2
      attemptLimit := 3, policy := .halt }
  prog :=
    { arrived := 0, cursor := 0, breaks := 0, offset := 0, reservation := 0, pendingFailure := none, outcome := none }
  plan := { mode := .plain, timeout := 50 }
  mainEnded := false
  kerf := []

/-- A state in which contour 1 has this record. -/
def holding (s : State) (c : Contour) : State := s.onWorks fun w => { w with contours := [(1, c)] }

/-- Station 0 of a state changed. -/
def on0 (s : State) (f : Station → Station) : State := s.onWorks fun w => w.upd 0 f

/-- Station 0 works on contour 1. -/
def working (c : Contour) (f : Station → Station) : State :=
  holding (on fun x => f { Station.start x with current := some 1 }) c

/-- A management request. -/
def frame (u : MgmtUnit) (code auth : Byte) (args : List Byte) : MgmtFrame where
  authority := auth
  tn := 1
  unit := u.code
  request := code
  args := args

/-- A state with one request in the management buffer. -/
def asked (s : State) (f : MgmtFrame) : State := { s with mgmt := [f] }

/-- A request alone in the buffer is offered to its unit when the reply queue has room. -/
theorem offers_asked (s : State) (u : MgmtUnit) (code auth : Byte) (args : List Byte) (a : Authority)
    (hr : s.replies.length + s.reserved < 16) (ha : authorityOf auth = some a) :
    (asked s (frame u code auth args)).offers u code args.length a (frame u code auth args) [] :=
  ⟨⟨[], [], rfl, by simp, rfl, rfl⟩, rfl, hr, ha, rfl⟩

/-- An operation of the pair. -/
def op (b : OpBody) : Op := { issue := 0, body := b }

/-- A segment. -/
def seg (k : PathKind) (n : Nat) : Segment where
  kind := k
  length := n
  endX := 0
  endY := 0
  centre := none
  taper := none
  feed := 0

/-- A kerf entry. -/
def entry (k : Nat) (s : KerfState) : KerfEntry where
  ordinal := k
  seg := seg .cutLine 100
  seq := 0
  handle := none
  state := s
  progress := 0
  direction := none

/-- A queue entry of contour `id`. -/
def queued (id k : Nat) (kind : PathKind) : QEntry where
  seq := 0
  first := decide (k = 1)
  last := false
  handle := none
  contour := id
  ordinal := k
  seg := seg kind 100

/-- An episode between operations. -/
def episode : Episode where
  kind := .startHole
  contour := 1
  attemptLimit := 3
  lockCount := 4
  offsetBound := 5
  relock := .retry
  attempts := 0
  offset := 0
  lockRun := 0
  lastMiss := none
  broken := false
  lockoutPending := false
  reason := none
  clearanceDue := false

/-- The CUT move of the first segment. -/
def cutOp : Op := op (.move .cut .forward 0 (seg .cutLine 100) (.mainEntry 1 1))

/-! ## One step of some commands -/

theorem test_time_read_answers :
    (after .timeRead (asked State.reset (frame .part 2 0 []))).lane
      = some (.reply { tn := 1, unit := 0, request := 2, status := .ok, data := .time 0 }) := by decide

theorem test_begin_program_needs_the_break_line :
    ((after .beginProgram (asked State.reset (frame .station 0 0 [0, 1, 0, 0]))).works.station 0).state = .idle := by
  decide

theorem test_path_frame_before_a_program_is_refused :
    (after (.pathFrame (longPath 6)) State.reset).lane
      = some (.report 0 { body := .refusal 0 .noProgram none 128, stamp := 0 }) := by decide

theorem test_done_of_a_first_segment_raises_the_cursor :
    ((after (.done 0 0)
      (working { contour .cutting with kerf := [entry 1 .issued] } fun x =>
        { x with pair := [cutOp], wire := .threaded, activity := .cutting })).works.contour? 1).map
          (fun c => c.prog.cursor) = some 1 := by decide

/-! ## The hypotheses of the statements are met: the queue, PART RESET and the link -/

theorem witness_StepRunsTheFrontCommand :
    State.reset.pending = [] ∧ (State.reset.works.time.toNat ≠ 4294967295)
      ∧ ({ State.reset.works with time := 0xFFFFFFFF } : Works).time.toNat = 4294967295 := by decide

theorem witness_PartResetReadsTheCalibrationStore :
    let bad : State := { State.reset with store := { State.reset.store with valid := false } }
    let torn : State :=
      { State.reset with store := { State.reset.store with writing := some { tn := 1, gains := ⟨0, 1, 2, 4095⟩ } } }
    State.reset.store.writing = none ∧ torn.store.writing ≠ none ∧ (after .partReset State.reset).store.valid = true
      ∧ (after .partReset bad).store.valid = false := by decide

set_option maxRecDepth 4000 in
theorem witness_FramesThatFailTheirTestsAreLinkErrors :
    receiveFrame [] = none ∧ receiveFrame [5, 0, 0, 0, 0, 0, 0, 0] = none
      ∧ 3 < ({ longPath 6 with station := 4 } : PathFrame).station.toNat := by decide

theorem witness_ManagementFramesJoinTheBuffer :
    let f := frame .part 0 0 []
    let full : State := { State.reset with mgmt := List.replicate 8 f }
    (f.tn ≠ 0 ∧ f.tn ≠ 255 ∧ State.reset.mgmt.length < 8) ∧ (8 ≤ full.mgmt.length)
      ∧ ({ f with tn := 254 } : MgmtFrame).tn ≠ 255 ∧ ({ f with tn := 255 } : MgmtFrame).tn = 255
      ∧ ({ f with tn := 0 } : MgmtFrame).tn = 0 := by decide

/-- The state, with 16 replies built. -/
def crowded (s : State) : State :=
  { s with
    replies := List.replicate 16 { tn := 1, unit := 0, request := 0, status := .ok, data := .empty } }

theorem witness_RequestsAreTakenInOrderAndChecked :
    let other := asked State.reset (frame .gap 0 0 [])
    Instr.hold.requestOf = some (.station, 1, 1)
      ∧ (∀ g ∈ other.mgmt, g.unit ≠ MgmtUnit.station.code)
      ∧ (∀ f : MgmtFrame, f.unit = MgmtUnit.station.code → (asked State.reset f).oldest .station f [])
      ∧ (frame .station 0 0 [0]).request ≠ 1 ∧ 16 ≤ (crowded State.reset).replies.length + (crowded State.reset).reserved
      ∧ State.reset.replies.length + State.reset.reserved < 16
      ∧ 1 < (frame .station 1 2 [0]).authority.toNat ∧ (frame .station 1 0 []).args.length ≠ 1 := by
  refine ⟨rfl, by decide, fun f h => ⟨[], [], rfl, by simp, h, rfl⟩, by decide, by decide, by decide, by decide, by decide⟩

theorem witness_UnknownRequestsAreAnsweredBadReq :
    let f := { frame .part 3 0 [] with unit := 9 }
    State.reset.replies.length + State.reset.reserved < 16
      ∧ (asked State.reset (frame .part 3 0 [])).oldest .part (frame .part 3 0 []) []
      ∧ MgmtUnit.part.requests ≤ (frame .part 3 0 []).request.toNat
      ∧ (asked State.reset f).mgmt = [] ++ f :: [] ∧ 8 < f.unit.toNat :=
  ⟨by decide, ⟨[], [], rfl, by simp, rfl, rfl⟩, by decide, rfl, by decide⟩

/-- A report. -/
def report : Report := { body := .kerfWait 1 2, stamp := 0 }

theorem witness_UpstreamLaneServesRepliesNoticesReports :
    let r : Reply := { tn := 1, unit := 0, request := 0, status := .ok, data := .empty }
    let noticed : State := State.reset.onWorks fun w => w.raise flagLinkError
    let reporting := on fun x => { x with reports := [report] }
    ({ State.reset with lane := some (.reply r) } : State).lane = some (.reply r)
      ∧ ({ State.reset with replies := [r] } : State).replies = r :: []
      ∧ (noticed.replies = [] ∧ noticed.works.notices.pending = true
        ∧ noticed.works.notices.flags &&& noticed.works.notices.enables ≠ 0)
      ∧ (reporting.replies = [] ∧ reporting.works.notices.pending = false
        ∧ rotation reporting.lastServed = [] ++ 0 :: [1, 2, 3] ∧ (reporting.works.station 0).reports = report :: [])
      ∧ (∀ st, (State.reset.works.station st).reports = []) := by decide

theorem witness_ReportsJoinTheirQueueOrAreCounted :
    let p : Report := { body := .progress 1 0 128 true, stamp := 0 }
    ((on fun x => { x with reports := List.replicate 31 report }).works.station 0).reports.length < 32
      ∧ 32 ≤ ((on fun x => { x with reports := List.replicate 32 report }).works.station 0).reports.length
      ∧ (active.works.station 0).adm.program = some prog
      ∧ (∃ r : Report, r ∈ ((on0 active fun x => { x with reports := [p] }).works.station 0).reports ∧ r.isPresentProgress = true)
      ∧ (∀ r ∈ (active.works.station 0).reports, r.isPresentProgress = false) := by decide

set_option maxRecDepth 20000 in
theorem witness_FrameCheckIsComputedBitByBit :
    ([0, 0, 0, 0] : List Byte).drop 2 ≠ checkBytes (frameCheck [0, 0]) ∧ (byteAt [0, 0, 0, 0] 0).toNat + 3 ≠ 4
      ∧ 16 ≤ ({ longPath 6 with flags := 16 } : PathFrame).flags.toNat := by decide

theorem witness_FramesAreReadBackFromTheirBytes : (longPath 47).wf = true ∧ (longMgmt 56).wf = true :=
  ⟨by decide, longMgmt_wf 56⟩

/-! ## Management requests -/

/-- Station 4 names no station, and station 3 does. -/
theorem witness_station_bytes :
    3 < (byteAt [4] 0).toNat ∧ stationOf (byteAt [3] 0) = some 3 ∧ stationOf (byteAt [0] 0) = some 0 := by decide

theorem witness_ReadingRequestsAnswerAndChangeNothing :
    (asked State.reset (frame .part 0 0 [])).offers .part 0 0 .planner (frame .part 0 0 []) []
      ∧ (asked State.reset (frame .part 2 0 [])).offers .part 2 0 .planner (frame .part 2 0 []) []
      ∧ (asked State.reset (frame .kerf 0 0 [])).offers .kerf 0 0 .planner (frame .kerf 0 0 []) []
      ∧ (asked State.reset (frame .sense 1 0 [])).offers .sense 1 0 .planner (frame .sense 1 0 []) []
      ∧ (asked State.reset (frame .station 7 1 [4])).offers .station 7 1 .service (frame .station 7 1 [4]) []
      ∧ (asked State.reset (frame .station 7 1 [3])).offers .station 7 1 .service (frame .station 7 1 [3]) [] :=
  ⟨offers_asked _ _ _ _ _ _ (by decide) rfl, offers_asked _ _ _ _ _ _ (by decide) rfl,
    offers_asked _ _ _ _ _ _ (by decide) rfl, offers_asked _ _ _ _ _ _ (by decide) rfl,
    offers_asked _ _ _ _ _ _ (by decide) rfl, offers_asked _ _ _ _ _ _ (by decide) rfl⟩

theorem witness_TimeSetMovesTheCatchWaits :
    let s := on fun x => { x with catchWait := some 5000000 }
    let f := frame .part 1 0 [0, 0, 0, 9]
    (asked s f).offers .part 1 4 .planner f [] ∧ (s.works.station 0).catchWait = some 5000000
      ∧ (s.works.station 1).catchWait = none :=
  ⟨offers_asked _ _ _ _ _ _ (by decide) rfl, by decide, by decide⟩

theorem witness_BeginProgramOpensTheStation :
    let enabled : State := State.reset.setLine 0 .breakLine { enable := true, edge := .rising, level := .low }
    let f := frame .station 0 0 [0, 1, 0, 0]
    (asked enabled f).offers .station 0 4 .planner f []
      ∧ byteAt [4, 1, 0, 0] 0 = 4 ∧ byteAt [0, 0, 0, 0] 1 = 0
      ∧ ((active.works.station 0).state ≠ .idle ∧ (State.reset.lines.get 0).breakLine.enable = false)
      ∧ ((enabled.works.station 0).state = .idle ∧ (enabled.lines.get 0).breakLine.enable = true) :=
  ⟨offers_asked _ _ _ _ _ _ (by decide) rfl, by decide, by decide, by decide, by decide⟩

theorem witness_HoldReasonsAreAddedOnce :
    let guard : Holds := { guard := true }
    ((active.works.station 0).state = .active ∧ guard.without (active.works.station 0).holds ≠ Holds.none)
      ∧ (State.reset.works.station 0).state = .idle
      ∧ guard.without ((held guard).works.station 0).holds = Holds.none := by decide

theorem witness_HoldAddsRequest :
    let f := frame .station 1 0 [0]
    (asked active f).offers .station 1 1 .planner f [] ∧ (State.reset.works.station 0).state = .idle
      ∧ ((held { request := true }).works.station 0).holds.request = true
      ∧ ((active.works.station 0).state = .active ∧ (active.works.station 0).holds.request = false) :=
  ⟨offers_asked _ _ _ _ _ _ (by decide) rfl, by decide, by decide, by decide⟩

theorem witness_ResumeClearsItsReasons :
    let f := frame .station 2 0 [0]
    let h := held { guard := true }
    let high : State := h.setLine 0 .guardLine { enable := true, edge := .rising, level := .high }
    (asked h f).offers .station 2 1 .planner f []
      ∧ (active.works.station 0).state ≠ .held
      ∧ ((high.works.station 0).holds.guard = true ∧ (high.lines.get 0).guardLine.level = .high)
      ∧ ((held { noCatch := true }).works.station 0).holds.guard = false
      ∧ ((h.works.station 0).state = .held ∧ (h.lines.get 0).guardLine.level = .low) :=
  ⟨offers_asked _ _ _ _ _ _ (by decide) rfl, by decide, by decide, by decide, by decide⟩

theorem witness_ConfirmSatisfiesTheClosing :
    let f := frame .station 3 0 [0]
    let k : Closing := { cutReceived := true, required := .pause, satisfied := false }
    let s := working (contour .closing) fun x =>
      { x with state := .held, holds := { partRemoval := true }, closing := some k }
    (asked s f).offers .station 3 1 .planner f []
      ∧ (held { guard := true }).works.stations.s0.holds.partRemoval = false
      ∧ ((s.works.station 0).state = .held ∧ (s.works.station 0).holds.partRemoval = true
        ∧ (s.works.station 0).current = some 1 ∧ s.works.contour? 1 = some (contour .closing)
        ∧ (contour .closing).prog.pendingFailure = none ∧ (s.works.station 0).closing = some k)
      ∧ ((held { noCatch := true }).works.station 0).closing = none
      ∧ (((held Holds.none).works.station 0).state = .held ∧ ((held Holds.none).works.station 0).holds = Holds.none
        ∧ (active.works.station 0).state ≠ .held) :=
  ⟨offers_asked _ _ _ _ _ _ (by decide) rfl, by decide, by decide, by decide, by decide⟩

/-- A contour with a pending failure. -/
def failing (s : ContourState) : Contour :=
  { contour s with prog := { (contour s).prog with pendingFailure := some .threadAttempts } }

theorem nobody_waits (g : St) (r : Waiting) (h : State.reset.works.pool.waiting.get g = some r) : r.contour ≠ 1 := by
  match g with
  | 0 | 1 | 2 | 3 => cases h

theorem witness_SkipContourEndsTheFailedContour :
    let f := frame .station 4 0 [0]
    let s := working (failing .cutting) fun x => { x with state := .held, holds := { contourFailed := true } }
    (asked s f).offers .station 4 1 .planner f []
      ∧ (active.works.station 0).current = none
      ∧ ((s.works.station 0).state = .held ∧ (s.works.station 0).current = some 1
        ∧ s.works.contour? 1 = some (failing .cutting)
        ∧ (failing .cutting).prog.pendingFailure = some .threadAttempts ∧ (failing .cutting).cfg.station = 0)
      ∧ ∀ g r, s.works.pool.waiting.get g = some r → r.contour ≠ 1 :=
  ⟨offers_asked _ _ _ _ _ _ (by decide) rfl, by decide, by decide, nobody_waits⟩

theorem witness_SkipContourEndsTheFailedContour_failures :
    let skip := { contour .cutting with cfg := { (contour .cutting).cfg with policy := .skip } }
    let s := working skip fun x => { x with adm := { x.adm with queue := [queued 1 2 .cutLine, queued 2 1 .cutLine] } }
    ((s.works.station 0).current = some 1 ∧ s.works.contour? 1 = some skip ∧ skip.cfg.policy = .skip)
      ∧ (contour .cutting).cfg.policy = .halt
      ∧ ((s.works.station 0).adm.queue = [queued 1 2 .cutLine] ++ [queued 2 1 .cutLine]
        ∧ (∀ e ∈ [queued 1 2 .cutLine], e.contour = 1)
        ∧ (∀ e, [queued 2 1 .cutLine].head? = some e → e.contour ≠ 1)
        ∧ [queued 1 2 .cutLine].getLast? = some (queued 1 2 .cutLine))
      ∧ (active.works.station 0).adm.queue = [] ++ [] :=
  ⟨by decide, by decide, ⟨by decide, by decide, fun e h => by cases h; decide, by decide⟩, by decide⟩

/-- A recovery record. -/
def recovery (step : RecoveryStep) : Recovery where
  contour := 1
  pass := .main
  place := .inCut
  path := none
  step := step
  next := none

theorem witness_RetryTakesTheContourUpAgain :
    let f := frame .station 5 0 [0]
    let s := working (failing .entering) fun x => { x with state := .held, holds := { contourFailed := true } }
    let r := working (failing .cutting) fun x => { x with state := .held, recovery := some (recovery .startHole) }
    let e := working { failing .cutting with mainEnded := true } fun x =>
      { x with state := .held, wire := .unthreaded, recovery := some (recovery .due) }
    let k := working (failing .closing) fun x =>
      { x with
        state := .held, recovery := some (recovery .due)
        closing := some { cutReceived := true, required := .plain, satisfied := true } }
    (asked s f).offers .station 5 1 .planner f []
      ∧ ((s.works.station 0).state = .held ∧ s.works.contour? 1 = some (failing .entering)
        ∧ (s.works.station 0).recovery = none)
      ∧ ((r.works.station 0).recovery = some (recovery .startHole) ∧ (failing .cutting).needsCutting = true)
      ∧ ((e.works.station 0).recovery = some (recovery .due) ∧ (e.works.station 0).wire = .unthreaded
        ∧ ({ failing .cutting with mainEnded := true } : Contour).needsCutting = false
        ∧ (e.works.station 0).pair = [] ∧ (e.works.station 0).returned = [])
      ∧ ((k.works.station 0).closing = some { cutReceived := true, required := .plain, satisfied := true }
        ∧ (failing .closing).state = .closing) ∧ (failing .tabCutting).state = .tabCutting :=
  ⟨offers_asked _ _ _ _ _ _ (by decide) rfl, by decide, by decide, by decide, by decide, by decide⟩

theorem witness_RetryTakesTheContourUpAgain_last_rows :
    let k := working (failing .closing) fun x =>
      { x with
        state := .held, recovery := some (recovery .due)
        closing := some { cutReceived := true, required := .pause, satisfied := false } }
    let ended := { failing .cutting with mainEnded := true }
    let cut := working ended fun x =>
      { x with
        state := .held, recovery := some (recovery .due), wire := .broken, pair := [op (.wireCut .mainEnd)]
        returned := [{ body := .wireCut .mainEnd, progress := 0 }] }
    let whole := { failing .cutting with prog := { (failing .cutting).prog with cursor := 2 } }
    ((k.works.station 0).closing = some { cutReceived := true, required := .pause, satisfied := false }
        ∧ (k.works.station 0).recovery = some (recovery .due))
      ∧ (ended.needsCutting = false ∧ ended.state = .cutting ∧ (cut.works.station 0).wire ≠ .unthreaded
        ∧ (∃ o ∈ (cut.works.station 0).pair, o.body.isWireCut = true)
        ∧ ∃ q ∈ (cut.works.station 0).returned, q.body.isWireCut = true)
      ∧ (whole.needsCutting = false ∧ whole.mainEnded = false) := by decide

theorem witness_AbortBeginsTheTeardown :
    let f := frame .station 6 0 [0]
    (asked active f).offers .station 6 1 .planner f []
      ∧ (State.reset.works.station 0).state = .idle ∧ ((on fun x => { x with state := .aborting }).works.station 0).state = .aborting
      ∧ (active.works.station 0).state = .active :=
  ⟨offers_asked _ _ _ _ _ _ (by decide) rfl, by decide, by decide, by decide⟩

theorem witness_SetStationReplacesOrStages :
    let low := frame .station 8 0 [0, 1, 1, 1, 0, 0]
    let high := frame .station 8 1 [3, 15, 7, 7, 1, 1]
    (asked State.reset low).offers .station 8 6 .planner low [] ∧ (asked active high).offers .station 8 6 .service high []
      ∧ (paramsOf low.args).isSome = true ∧ (paramsOf high.args).isSome = true
      ∧ (byteAt [0, 16, 1, 1, 0, 0] 1).toNat = 16 ∧ (State.reset.works.station 0).state = .idle
      ∧ (active.works.station 0).state ≠ .idle :=
  ⟨offers_asked _ _ _ _ _ _ (by decide) rfl, offers_asked _ _ _ _ _ _ (by decide) rfl, by decide, by decide, by decide,
    by decide, by decide⟩

theorem witness_DefineContourWritesAFreshRecord :
    let low : List Byte := [1, 0, 0, 0, 0, 0, 0, 0, 0, 2, 1, 0, 0, 1, 0]
    let high : List Byte := [255, 3, 0, 0, 0, 0, 0, 0, 0x0F, 0xFF, 15, 1, 15, 15, 1]
    let beyond : List Byte := [1, 0, 0, 0, 0, 0, 0, 0, 0x10, 0, 1, 0, 0, 1, 0]
    let f := frame .contour 0 0 low
    (asked State.reset f).offers .contour 0 15 .planner f []
      ∧ (configOf low).isSome = true ∧ (configOf high).isSome = true ∧ configOf beyond = none
      ∧ State.reset.works.contour? 1 = none
      ∧ ((holding State.reset (contour .cutting)).works.contour? 1).map Contour.state = some .cutting :=
  ⟨offers_asked _ _ _ _ _ _ (by decide) rfl, by decide, by decide, by decide, by decide, by decide⟩

theorem witness_DeleteContourFreesTheRecord :
    let s := holding State.reset (contour .defined)
    let f := frame .contour 1 0 [1]
    (asked s f).offers .contour 1 1 .planner f [] ∧ (asked s f).tableLaw ∧ State.reset.works.contour? 1 = none
      ∧ s.works.contour? 1 = some (contour .defined)
      ∧ (holding State.reset (contour .queued)).works.contour? 1 = some (contour .queued) :=
  ⟨offers_asked _ _ _ _ _ _ (by decide) rfl,
    ⟨rfl, by
      intro p h
      simp only [asked, holding, State.onWorks, List.mem_singleton] at h
      subst h
      decide⟩, by decide, by decide, by decide⟩

theorem witness_ReadContourAndReadPlanChangeNothing :
    let s := holding State.reset (contour .defined)
    let f := frame .contour 2 0 [1]
    let g := frame .plan 1 0 [1]
    (asked s f).offers .contour 2 1 .planner f [] ∧ (asked s g).offers .plan 1 1 .planner g []
      ∧ (byteAt [0] 0).toNat = 0 ∧ s.works.contour? 255 = none ∧ s.works.contour? 1 = some (contour .defined) :=
  ⟨offers_asked _ _ _ _ _ _ (by decide) rfl, offers_asked _ _ _ _ _ _ (by decide) rfl, by decide, by decide, by decide⟩

theorem witness_SetPlanIsJudgedInOrder :
    let c := { contour .cutting with cfg := { (contour .cutting).cfg with segments := 3 } }
    let s := holding State.reset c
    let f := frame .plan 0 1 [1, 3, 0, 3, 0, 2, 1]
    let p : Plan := { mode := .tab 3 .forward .pause, timeout := 1 }
    (asked s f).offers .plan 0 7 .service f [] ∧ planOf f.args = some p
      ∧ planOf [1, 4, 0, 3, 0, 2, 1] = none ∧ planOf [1, 0, 0, 0, 0, 0, 0] = none
      ∧ p.inBounds c.cfg = true ∧ ({ p with mode := .tab 2 .forward .pause } : Plan).inBounds c.cfg = false
      ∧ s.works.editAllowed c p .service = true ∧ s.works.editAllowed c p .planner = false :=
  ⟨offers_asked _ _ _ _ _ _ (by decide) rfl, by decide, by decide, by decide, by decide, by decide, by decide, by decide⟩

theorem witness_PlanEditsFollowTheMatrix :
    let tab : Plan := { mode := .tab 2 .forward .plain, timeout := 1 }
    let conf : Plan := { mode := .tab 2 .forward .pause, timeout := 9 }
    tab.mode ≠ (contour .cutting).plan.mode ∧ (tab.mode.structureEdit conf.mode) = false
      ∧ State.reset.works.lateEdit (contour .cutting) tab = true
      ∧ State.reset.works.lateEdit { contour .cutting with kerf := [entry 2 .cut] } tab = false := by decide

/-! ## Gap, sense, notice and store requests -/

/-- A GAP_SINGLE is outstanding for station 0. -/
def outstanding : State :=
  { State.reset with
    gap := { State.reset.gap with
      outstanding := some { tn := 2, st := 0 }, inProgress := { input := .station 0, single := true } } }

theorem witness_GapConfigReplacesTheValues :
    let low : List Byte := [0, 0, 0, 16, 0, 0, 1, 0, 0]
    let high : List Byte := [3, 3, 1, 0, 0x0F, 0xFF, 100, 0x0F, 0xFF]
    let f := frame .gap 0 0 low
    (asked State.reset f).offers .gap 0 9 .planner f [] ∧ outstanding.gap.outstanding ≠ none
      ∧ State.reset.gap.outstanding = none ∧ (gapConfigOf low).isSome = true ∧ (gapConfigOf high).isSome = true
      ∧ gapConfigOf [0, 0, 0, 17, 0, 0, 1, 0, 0] = none ∧ gapConfigOf [0, 4, 0, 16, 0, 0, 1, 0, 0] = none :=
  ⟨offers_asked _ _ _ _ _ _ (by decide) rfl, by decide, by decide, by decide, by decide, by decide, by decide⟩

/-- Station 0's channel is in this mode. -/
def mode (m : GapMode) : State :=
  State.reset.onChannel 0 fun c => { c with cfg := { c.cfg with mode := m } }

theorem witness_GapSingleIsPendingAndReserved :
    let f := frame .gap 1 0 [0]
    (asked (mode .single) f).offers .gap 1 1 .planner f [] ∧ outstanding.gap.outstanding ≠ none
      ∧ ((State.reset.gap.channels.get 0).cfg.mode = .off) ∧ (((mode .single).gap.channels.get 0).cfg.mode ≠ .off) :=
  ⟨offers_asked _ _ _ _ _ _ (by decide) rfl, by decide, by decide, by decide⟩

theorem witness_GapReadClearAndResetExtremes :
    let f := fun code => frame .gap code 0 [0]
    (asked State.reset (f 2)).offers .gap 2 1 .planner (f 2) [] ∧ (asked State.reset (f 3)).offers .gap 3 1 .planner (f 3) []
      ∧ (asked State.reset (f 4)).offers .gap 4 1 .planner (f 4) [] ∧ outstanding.gap.outstanding ≠ none
      ∧ State.reset.gap.outstanding = none :=
  ⟨offers_asked _ _ _ _ _ _ (by decide) rfl, offers_asked _ _ _ _ _ _ (by decide) rfl,
    offers_asked _ _ _ _ _ _ (by decide) rfl, by decide, by decide⟩

theorem witness_SenseConfigReplacesEnableAndEdge :
    let f := frame .sense 0 0 [0, 0, 1, 0]
    (asked active f).offers .sense 0 4 .planner f []
      ∧ 2 < (byteAt [0, 3, 0, 0] 1).toNat ∧ 1 < (byteAt [0, 0, 2, 0] 2).toNat ∧ 1 < (byteAt [0, 0, 0, 2] 3).toNat
      ∧ lineOf (byteAt f.args 1) = some .breakLine ∧ lineOf 2 = some .guardLine
      ∧ active.senseLocked .planner 0 .breakLine true .rising = true
      ∧ active.senseLocked .service 0 .breakLine true .rising = false :=
  ⟨offers_asked _ _ _ _ _ _ (by decide) rfl, by decide, by decide, by decide, by decide, by decide, by decide, by decide⟩

theorem witness_NoticeRequestsActOnFlagsAndEnables :
    (asked State.reset (frame .notice 0 0 [0, 1])).offers .notice 0 2 .planner (frame .notice 0 0 [0, 1]) []
      ∧ (asked State.reset (frame .notice 1 0 [])).offers .notice 1 0 .planner (frame .notice 1 0 []) []
      ∧ (asked State.reset (frame .notice 2 0 [0, 1])).offers .notice 2 2 .planner (frame .notice 2 0 [0, 1]) [] :=
  ⟨offers_asked _ _ _ _ _ _ (by decide) rfl, offers_asked _ _ _ _ _ _ (by decide) rfl,
    offers_asked _ _ _ _ _ _ (by decide) rfl⟩

theorem witness_FlagsAreSetOnceAndMakeNoticesPending :
    (State.reset.works.notices.raise 15).flags.getLsbD 15 = true ∧ State.reset.works.notices.flags.getLsbD 15 = false
      ∧ State.reset.works.notices.flags.getLsbD 0 = false := by decide

theorem witness_StoreIsReadAndWritten :
    let f := frame .store 1 1 [0, 0, 0x0F, 0xFF, 0, 0, 0, 0]
    let busy : State :=
      { State.reset with store := { State.reset.store with writing := some { tn := 1, gains := ⟨0, 0, 0, 0⟩ } } }
    (asked State.reset (frame .store 0 0 [])).offers .store 0 0 .planner (frame .store 0 0 []) []
      ∧ (asked State.reset f).offers .store 1 8 .service f [] ∧ busy.store.writing ≠ none
      ∧ State.reset.store.writing = none ∧ (gainsOf f.args).isSome = true
      ∧ gainsOf [0x10, 0, 0, 0, 0, 0, 0, 0] = none :=
  ⟨offers_asked _ _ _ _ _ _ (by decide) rfl, offers_asked _ _ _ _ _ _ (by decide) rfl, by decide, by decide, by decide,
    by decide⟩

/-! ## The Gap Monitor and the sense lines -/

/-- Station 0's channel in a continuous mode, one conversion before its window of 16 is full, and being converted. -/
def scanning (m : GapMode) : State :=
  { State.reset with
    gap := { State.reset.gap with
      inProgress := { input := .station 0, single := false }
      channels := State.reset.gap.channels.modify 0 fun c =>
        { c with cfg := { c.cfg with mode := m, window := 16 }, count := 15, shorts := 15 } } }

theorem witness_ConversionEndTakesTheResult :
    let ch := (scanning .continuous).gap.channels.get 0
    State.reset.gap.inProgress.input = .reference
      ∧ ((scanning .off).gap.inProgress.input = .station 0 ∧ ((scanning .off).gap.channels.get 0).cfg.mode = .off)
      ∧ (ch.cfg.mode = .continuous ∧ (ch.sample 0 0).alarm = true ∧ ch.alarm = false)
      ∧ (({ ch with shorts := 0 } : GapChannel).sample 4095 0).alarm = false
      ∧ (outstanding.gap.inProgress.single = true ∧ outstanding.gap.outstanding = some { tn := 2, st := 0 }) := by decide

/-- A CUT move of the tail entry 2 of contour 1. -/
def tailOp : Op := op (.move .cut .forward 0 (seg .cutLine 100) (.tailEntry 1 2))

theorem witness_ConversionEndTakesTheResult_alarms :
    let hold := working (contour .cutting) fun x =>
      { x with tc := { x.tc with params := { x.tc.params with gapHold := true } } }
    tailOp.body = .move .cut .forward 0 (seg .cutLine 100) (.tailEntry 1 2)
      ∧ ((hold.works.station 0).tc.params.gapHold = true ∧ (hold.works.station 0).current = some 1
        ∧ hold.works.contour? 1 = some (contour .cutting) ∧ (hold.works.station 0).pair = [])
      ∧ (active.works.station 0).tc.params.gapHold = false := by decide

theorem witness_ConverterChoosesSingleOrScan :
    ({ State.reset.gap with pendingSingle := some 3 } : GapMonitor).pendingSingle = some 3
      ∧ (State.reset.gap.pendingSingle = none
        ∧ scanOrder State.reset.gap.scan
          = [.station 0, .station 1, .station 2, .station 3] ++ GapInput.reference :: []
        ∧ ∀ st, (State.reset.gap.channels.get st).cfg.mode = .off) := by decide

theorem witness_WindowsGiveRatioExtremesAndAlarm :
    let ch := (scanning .continuous).gap.channels.get 0
    (State.reset.gap.channels.get 0).count + 1 < (State.reset.gap.channels.get 0).cfg.window
      ∧ ch.cfg.window ≤ ch.count + 1 ∧ ch.cfg.ratio ≤ 30 ∧ 29 < ch.cfg.ratio
      ∧ ((scanning .continuousHold).gap.channels.get 0).cfg.mode = .continuousHold := by decide

/-- A state whose three lines of station 0 are enabled, at their inactive level. -/
def listening (s : State) : State :=
  ((s.setLine 0 .breakLine { enable := true, edge := .rising, level := .low }).setLine 0 .catchLine
    { enable := true, edge := .rising, level := .low }).setLine 0 .guardLine
      { enable := true, edge := .falling, level := .high }

theorem witness_LevelChangesDeliverActiveEdges :
    (∀ k, ((listening State.reset).line 0 k).enable = true
        ∧ ((listening State.reset).line 0 k).delivers ((listening State.reset).line 0 k).edge.activeLevel = true)
      ∧ (State.reset.line 0 .breakLine).delivers .high = false := by
  refine ⟨fun k => ?_, by decide⟩
  cases k <;> decide

/-- A contour being cut, its first segment issued. -/
def cutting : Contour := { contour .cutting with kerf := [entry 1 .issued] }

/-- Station 0 cuts the first segment of contour 1. -/
def cutter : State :=
  working cutting fun x => { x with wire := .threaded, activity := .cutting, wirePlace := .inCut, pair := [cutOp] }

/-- Station 0 in an episode with its controller in this state. -/
def threading (t : ThreaderState) (e : Episode) (pair : List Op) : State :=
  working (contour .entering) fun x =>
    { x with wire := .unthreaded, pair := pair, tc := { x.tc with state := t, episode := some e } }

theorem witness_BreakEdgesActByWireState :
    let l := (listening State.reset).line 0 .breakLine
    let still := on0 cutter fun x => { x with pair := [] }
    (l.enable = true ∧ l.isActive = false) ∧ (State.reset.works.station 0).wire ≠ .threaded
      ∧ (∀ t ∈ [ThreaderState.idle, .feeding, .locked, .abandoning],
        ((threading t episode []).works.station 0).wire ≠ .threaded
          ∧ ((threading t episode []).works.station 0).tc.episode = some episode)
      ∧ ((on0 cutter fun x => { x with state := .aborting }).works.station 0).state = .aborting
      ∧ ((cutter.works.station 0).wire = .threaded ∧ (cutter.works.station 0).state = .active
        ∧ ∃ o ∈ (cutter.works.station 0).pair, o.body.isCutOrKerf = true)
      ∧ ((∀ o ∈ (still.works.station 0).pair, o.body.isCutOrKerf = false) ∧ (still.works.station 0).current = some 1
        ∧ still.works.contour? 1 = some cutting ∧ (still.works.station 0).pass = none
        ∧ cutting.prog.breaks < cutting.cfg.breakLimit ∧ cutting.prog.cursor < cutting.cfg.segments
        ∧ cutting.entry? (cutting.prog.cursor + 1) = some (entry 1 .issued) ∧ (entry 1 .issued).isMain = true)
      ∧ (contour .cutting).entry? 1 = none := by decide

theorem witness_BreakEdgesActByWireState_boundaries :
    let whole := { contour .cutting with
      kerf := [entry 1 .cut, entry 2 .cut], prog := { (contour .cutting).prog with cursor := 2 } }
    let tab := { contour .cutting with
      kerf := [entry 1 .cut], prog := { (contour .cutting).prog with cursor := 1 }
      plan := { mode := .tab 2 .forward .plain, timeout := 1 } }
    let part := { contour .tabCutting with kerf := [entry 1 .cut, entry 2 .tailCut, entry 3 .tail] }
    let done := { contour .tabCutting with kerf := [entry 1 .cut, entry 2 .tailCut] }
    let tail := fun c : Contour =>
      c.kerf.filter fun e => decide (e.state = .tail ∨ e.state = .tailIssued ∨ e.state = .tailCut)
    (active.works.station 0).inPass 1 = false
      ∧ (whole.plan.tabOrdinal? = none ∧ whole.cfg.segments < whole.prog.cursor + 1 ∧ whole.entry? 2 = some (entry 2 .cut))
      ∧ (tab.plan.tabOrdinal? = some 2 ∧ 2 - 1 < tab.prog.cursor + 1 ∧ tab.entry? (2 - 1) = some (entry 1 .cut))
      ∧ (tail part = [entry 2 .tailCut] ++ entry 3 .tail :: []
        ∧ (tail part).reverse = [] ++ entry 3 .tail :: [entry 2 .tailCut]
        ∧ tail done = [] ++ [entry 2 .tailCut])
      ∧ ((op (.move .kerf .forward 0 (seg .cutLine 100) (.traverse 1 1))).body.isCutOrKerf = true
        ∧ cutOp.body.isBrokenWork = false)
      ∧ ((∀ id, (active.works.station 0).current = some id → active.works.contour? id = none)
        ∧ (contour .cutting).cfg.breakLimit < 3) :=
  ⟨by decide, by decide, by decide, by decide, by decide, ⟨fun id h => (by cases h), by decide⟩⟩

/-- The closing record of a caught contour. -/
def closing (received satisfied : Bool) : Closing where
  cutReceived := received
  required := .catcher
  satisfied := satisfied

theorem witness_CatchAndGuardEdgesActOnTheStation :
    let g := (listening active).line 0 .guardLine
    let l := (listening active).line 0 .catchLine
    let tab := working { contour .cutting with plan := { mode := .tab 2 .forward .plain, timeout := 1 } } id
    let wait := working (contour .closing) fun x =>
      { x with catchWait := some 1, closing := some (closing true false) }
    (g.enable = true ∧ g.isActive = false ∧ l.enable = true ∧ l.isActive = false)
      ∧ (State.reset.works.station 0).state = .idle ∧ (active.works.station 0).current = none
      ∧ ((tab.works.station 0).state = .active ∧ (tab.works.station 0).catchWait = none
        ∧ (tab.works.contour? 1).map (fun c => c.plan.tabOrdinal?) = some (some 2))
      ∧ ((wait.works.station 0).catchWait = some 1 ∧ (wait.works.station 0).closing = some (closing true false)
        ∧ (wait.works.station 0).current = some 1 ∧ wait.works.contour? 1 = some (contour .closing))
      ∧ (closing false false).cutReceived = false := by decide

theorem witness_CatchAndGuardEdgesActOnTheStation_held_back :
    let failing := { contour .closing with prog := { (contour .closing).prog with pendingFailure := some .adjLimit } }
    let wait := working failing fun x => { x with catchWait := some 1, closing := some (closing true false) }
    let bare := working failing fun x => { x with catchWait := some 1 }
    (closing true false).cutReceived = true ∧ failing.prog.pendingFailure ≠ none
      ∧ ((wait.works.station 0).current = some 1 ∧ wait.works.contour? 1 = some failing
        ∧ (wait.works.station 0).catchWait = some 1 ∧ (wait.works.station 0).closing = some (closing true false))
      ∧ ((bare.works.station 0).catchWait = some 1 ∧ (bare.works.station 0).closing = none) := by decide

theorem witness_CompletionReleasesTheContour :
    let s := working { cutting with state := .closing } id
    s.works.contour? 1 = some { cutting with state := .closing } ∧ cutting.cfg.station = 0
      ∧ (∀ e ∈ cutting.kerf, e.handle = none) ∧ (∀ g r, s.works.pool.waiting.get g = some r → r.contour ≠ 1)
      ∧ (s.works.station 0).reports.length < 32 ∧ ∀ g, s.works.pool.waiting.get g = none :=
  ⟨by decide, by decide, by decide, nobody_waits, by decide, by decide⟩

theorem witness_CompletionReleasesTheContour_in_a_pass :
    let work : PassWork := { contour := 1, t := 2, approach := .forward, step := .closing, next := 0 }
    let s := working { cutting with state := .closing } fun x =>
      { x with pass := some { trigger := .forced, work := some work }, deferred := [2] }
    s.works.contour? 1 = some { cutting with state := .closing }
      ∧ (s.works.station 0).pass = some { trigger := .forced, work := some work }
      ∧ ((s.works.complete 0 1).station 0).pass = some { trigger := .forced, work := none } := by decide

theorem witness_CatchWaitExpiryAddsNoCatch :
    let s := fun e => on0 active fun x => { x with catchWait := some e }
    (State.reset.works.station 0).catchWait = none
      ∧ ((s 0).works.station 0).catchWait = some 0 ∧ ((0 : Time) - (s 0).works.time).toNat = 0
      ∧ 25500000 < ((25500001 : Time) - (s 0).works.time).toNat
      ∧ (0 < ((25500000 : Time) - (s 0).works.time).toNat ∧ ((25500000 : Time) - (s 0).works.time).toNat ≤ 25500000) := by
  decide

/-! ## The drive's reports -/

theorem witness_DoneCompletesTheOldestMove :
    let marked := { entry 1 .issued with handle := some (3 : Fin 8) }
    let dwell := on0 active fun x => { x with pair := [op (.dwell 5 none)] }
    ((cutter.works.station 0).pair = cutOp :: [] ∧ cutter.works.contour? 1 = some cutting
        ∧ cutting.entry? 1 = some (entry 1 .issued) ∧ (cutter.works.station 0).pass = none
        ∧ (cutter.works.station 0).wire = .threaded ∧ (cutter.works.station 0).reports.length < 32)
      ∧ ({ cutting with kerf := [marked] } : Contour).entry? 1 = some marked
      ∧ (1 ≠ cutting.cfg.segments ∧ 2 = cutting.cfg.segments)
      ∧ (dwell.works.station 0).pair = [op (.dwell 5 none)] := by decide

/-- A travel issued for this work. -/
def travelOp (work : MoveWork) : Op := op (.move .travel .forward 0 (seg .travel 9) work)

/-- A KERF traverse of entry 1. -/
def kerfOp : Op := op (.move .kerf .forward 0 (seg .cutLine 100) (.traverse 1 1))

theorem witness_DoneCompletesTheOldestMove_by_work :
    let tail := working { contour .tabCutting with kerf := [entry 1 .cut, entry 2 .tailIssued] } fun x =>
      { x with pair := [tailOp] }
    let dry := working { contour .cutting with kerf := [entry 1 .cut] } fun x =>
      { x with wire := .threaded, activity := .cutting }
    let fed := on0 dry fun x => { x with adm := { x.adm with queue := [queued 1 2 .cutLine] } }
    ((tail.works.station 0).pair = tailOp :: []
        ∧ (tail.works.contour? 1).bind (fun c => c.entry? 2) = some (entry 2 .tailIssued))
      ∧ (∀ o ∈ [kerfOp, travelOp .entryTravel, travelOp .passTravel, travelOp .recoveryTravel, travelOp (.directive none),
          op (.dwell 5 none)], ((on0 active fun x => { x with pair := [o] }).works.station 0).pair = o :: [])
      ∧ (dry.works.underrunOrdinal 0 = some (1, 2) ∧ (dry.works.station 0).underrunReported = false
        ∧ (dry.works.station 0).adm.program = some prog)
      ∧ fed.works.underrunOrdinal 0 = none := by decide

theorem witness_UntrustedReportsAreDriveLoss :
    (cutter.works.station 0).pair = [cutOp] ∧ cutOp.issue ≠ 1 ∧ (op .confirm).body.answersDone = false
      ∧ (cutter.works.station 0).stopAwaited = false ∧ (cutter.works.station 0).state = .active
      ∧ (State.reset.works.station 0).pair = [] ∧ (State.reset.works.station 0).breakPending = false
      ∧ receiveReport [] = none := by decide

theorem witness_UntrustedReportsAreDriveLoss_charged :
    let charged := on0 cutter fun x => { x with breakPending := true, wire := .broken, stopAwaited := true }
    let back := on0 active fun x => { x with linkUp := false, returned := [{ body := .dwell 5 none, progress := 0 }] }
    let down := on0 active fun x => { x with linkUp := false, state := .aborting, wire := .broken }
    ((charged.works.station 0).breakPending = true ∧ (charged.works.station 0).state = .active
        ∧ (charged.works.station 0).current = some 1 ∧ charged.works.contour? 1 = some cutting)
      ∧ ((back.works.station 0).linkUp = false ∧ (back.works.station 0).stopAwaited = false
        ∧ (back.works.station 0).state = .active ∧ (back.works.station 0).pair = []
        ∧ (back.works.station 0).returned = { body := .dwell 5 none, progress := 0 } :: []
        ∧ (back.works.station 0).current = none)
      ∧ ((down.works.station 0).linkUp = false ∧ (down.works.station 0).state = .aborting
        ∧ (down.works.station 0).pair = [] ∧ (down.works.station 0).wire = .broken) := by decide

/-- A contour, a directive and an episode at which an operation is due. -/
def dueStates : List State :=
  [working (contour .entering) fun x => { x with activity := .entering, adm := { x.adm with queue := [queued 1 1 .cutLine] } },
    working (contour .entering) fun x =>
      { x with activity := .entering, wire := .unthreaded, adm := { x.adm with queue := [queued 1 1 .cutLine] } },
    on0 active fun x => { x with adm := { x.adm with queue := [queued 0 0 .dwell] } },
    on0 active fun x => { x with wire := .unthreaded, adm := { x.adm with queue := [queued 0 0 .travel] } },
    threading .idle episode [], threading .idle { episode with reason := some .miss } []]

theorem witness_UntrustedReportsAreDriveLoss_issues :
    ∀ s ∈ dueStates,
      let x := (s.works.upd 0 fun x => { x with linkUp := false }).station 0
      x.linkUp = false ∧ (Works.act 0 s.works).any (fun w => (w.station 0).nextIssue != x.nextIssue) = true := by decide

/-- A message of a drive with this code and these fields. -/
def message (code : Byte) (fields : List Byte) : List Byte :=
  let body := BitVec.ofNat 8 (1 + fields.length) :: code :: fields
  body ++ checkBytes (frameCheck body)

set_option maxRecDepth 20000 in
theorem witness_UntrustedReportsAreDriveLoss_messages :
    [message 8 [7], message 9 [1, 7, 0, 1, 2], message 9 [0, 0, 0, 1, 2], message 10 [7, 0, 1, 2, 9], message 11 [2],
        message 12 [], message 13 [], message 14 [], message 15 []].map receiveReport
      = [some (.done 7), some (.stopped (some 7) 258), some (.stopped none 258), some (.fault 7 258 9), some (.probe 2),
        some .probeEnd, some .threaded, some .abandoned, some .cut] := by decide

set_option maxRecDepth 20000 in
theorem witness_UntrustedReportsAreDriveLoss_bad_messages :
    [message 8 [7, 7], message 7 [], message 16 [], message 12 [0], (message 8 [7]).drop 1, message 8 [7] ++ [0], [0, 0, 0],
        [2, 8, 7, 0, 0]].map receiveReport
      = List.replicate 8 none := by decide

/-- A charged break is settled at drive loss, with its count raised (R63, R116). -/
theorem test_drive_loss_settles_a_charged_break :
    ((after (.portLinkDown 0 none)
      (on0 cutter fun x => { x with breakPending := true, wire := .broken, stopAwaited := true })).works.contour? 1).map
        (fun c => c.prog.breaks) = some 1 := by decide

theorem witness_StoppedAndFaultReturnTheWork :
    let stopped := on0 cutter fun x => { x with stopAwaited := true }
    let travel := op (.move .travel .forward 0 (seg .travel 9) .entryTravel)
    let kerf := op (.move .kerf .forward 0 (seg .cutLine 100) (.traverse 1 1))
    ((stopped.works.station 0).breakPending = false ∧ (stopped.works.station 0).stopAwaited = true
        ∧ (stopped.works.station 0).pair = [cutOp] ∧ stopped.works.contour? 1 = some cutting
        ∧ cutting.entry? 1 = some (entry 1 .issued)
        ∧ max 99 (entry 1 .issued).progress < (entry 1 .issued).seg.length
        ∧ (entry 1 .issued).seg.length ≤ max 100 (entry 1 .issued).progress)
      ∧ (stopped.works.station 0).state ≠ .aborting
      ∧ (∀ o ∈ [travel, kerf, op (.dwell 5 none)], ((on0 stopped fun x => { x with pair := [o] }).works.station 0).pair = [o])
      ∧ (cutter.works.station 0).stopAwaited = false := by decide

theorem witness_StoppedAndFaultReturnTheWork_pairs :
    let two := on0 cutter fun x =>
      { x with stopAwaited := true, breakPending := true, wire := .broken, pair := [kerfOp, tailOp] }
    let back := fun b => on0 active fun x => { x with returned := [{ body := b, progress := 7 }] }
    let full := on0 (back .confirm) fun x => { x with pair := [cutOp] }
    ((two.works.station 0).pair = kerfOp :: [tailOp] ∧ (two.works.station 0).breakPending = true
        ∧ (two.works.station 0).stopAwaited = true ∧ (two.works.station 0).current = some 1)
      ∧ (∀ b ∈ [OpBody.thread 0, .confirm, .abandon, .wireCut .entry, .wireCut .teardown],
        ((on0 active fun x => { x with pair := [op b] }).works.station 0).pair = op b :: [])
      ∧ (∀ b ∈ [kerfOp.body, (travelOp .entryTravel).body, OpBody.abandon, .dwell 5 none],
        ((back b).works.station 0).returned = { body := b, progress := 7 } :: []
          ∧ ((back b).works.station 0).state = .active ∧ ((back b).works.station 0).stopAwaited = false
          ∧ ((back b).works.station 0).pair = [] ∧ ((back b).works.station 0).linkUp = true
          ∧ ((back b).works.station 0).current = none)
      ∧ (OpBody.confirm.isTool = true ∧ (full.works.station 0).pair ≠ []) := by decide

/-- A STOPPED at the full length, with the entry's own progress behind it: the greater is kept (R84). -/
theorem test_stopped_at_full_length_keeps_the_progress :
    ((after (.stopped 0 (some 0) 100) (on0 cutter fun x => { x with state := .held, stopAwaited := true })).works.contour?
      1).bind (fun c => c.entry? 1) = some { entry 1 .cut with progress := 100 } := by decide

theorem witness_CutReportsEndTheWireCut :
    let cut := fun p c f => working c fun x => f { x with pair := [op (.wireCut p)] }
    let ended := { contour .cutting with mainEnded := true }
    let r := recovery .wireCut
    let pause := { contour .closing with plan := { mode := .pause, timeout := 1 } }
    (∀ o ∈ (cutter.works.station 0).pair, o.body.isWireCut = false)
      ∧ (((cut .mainEnd ended id).works.station 0).pair = op (.wireCut .mainEnd) :: []
        ∧ (cut .mainEnd ended id).works.contour? 1 = some ended ∧ ended.state = .cutting ∧ ended.mainEnded = true
        ∧ ended.prog.pendingFailure = none ∧ (failing .cutting).prog.pendingFailure ≠ none)
      ∧ ((cut .recovery (contour .cutting) fun x => { x with recovery := some r }).works.station 0).recovery = some r
      ∧ (((cut .closing (contour .closing) fun x => { x with closing := some (closing false true) }).works.station
            0).closing = some (closing false true)
        ∧ (contour .closing).plan.confirmRequired ≠ .pause ∧ (contour .closing).prog.pendingFailure = none
        ∧ (closing false true).satisfied = true ∧ (closing false false).satisfied = false)
      ∧ pause.plan.confirmRequired = .pause := by decide

theorem witness_CutReportsEndTheWireCut_issues :
    let s := working (contour .closing) fun x => { x with closing := some (closing false false) }
    let due := fun w => on0 active fun x => { x with failureCutDue := true, wire := w }
    ((s.works.station 0).state = .active ∧ (s.works.station 0).stopAwaited = false ∧ (s.works.station 0).returned = []
        ∧ (s.works.station 0).linkUp = true ∧ (s.works.station 0).current = some 1
        ∧ s.works.contour? 1 = some (contour .closing) ∧ (s.works.station 0).recovery = none
        ∧ (s.works.station 0).tc.episode = none ∧ (s.works.station 0).closing = some (closing false false)
        ∧ (s.works.station 0).pair = [])
      ∧ (closing true false).cutReceived = true
      ∧ ∀ w ∈ [Wire.unthreaded, .broken], ((due w).works.station 0).current = none
        ∧ ((due w).works.station 0).failureCutDue = true ∧ ((due w).works.station 0).pair = [] := by decide

theorem witness_ProbesLeadToConfirmOrAbandon :
    let s := threading .feeding episode [op (.thread 0)]
    (State.reset.works.station 0).tc.episode = none ∧ 2 < (3 : Byte).toNat
      ∧ ((s.works.station 0).tc.episode = some episode ∧ (s.works.station 0).tc.state = .feeding
        ∧ (s.works.station 0).stopAwaited = false ∧ episode.broken = false)
      ∧ ({ episode with broken := true } : Episode).broken = true ∧ episode.lockRun + 1 ≠ episode.lockCount
      ∧ ({ episode with lockRun := 3 } : Episode).lockRun + 1 = episode.lockCount := by decide

theorem witness_ThreadedSucceedsOrTakesLockout :
    let s := threading .locked episode [op .confirm]
    (State.reset.works.station 0).tc.episode = none
      ∧ ((s.works.station 0).tc.episode = some episode ∧ (s.works.station 0).tc.state = .locked
        ∧ (s.works.station 0).state ≠ .aborting ∧ episode.lockoutPending = false)
      ∧ ({ episode with lockoutPending := true } : Episode).lockoutPending = true
      ∧ ((s.works.station 0).reports.length < 32 ∧ (s.works.station 0).current = some episode.contour
        ∧ s.works.contour? episode.contour = some (contour .entering) ∧ (s.works.station 0).recovery = none
        ∧ (s.works.station 0).pass = none) := by decide

theorem witness_ThreadedSucceedsOrTakesLockout_issues :
    let s := threading .idle episode []
    let again := { episode with reason := some .clearance, clearanceDue := true }
    ((contour .entering).cfg.attemptLimit ≠ 0 ∧ (s.works.station 0).tc.params.inKerfLimit ≠ 0)
      ∧ ((s.works.station 0).state = .active ∧ (s.works.station 0).stopAwaited = false
        ∧ (s.works.station 0).returned = [] ∧ (s.works.station 0).linkUp = true ∧ (s.works.station 0).current = some 1
        ∧ s.works.contour? 1 = some (contour .entering) ∧ (contour .entering).prog.pendingFailure = none
        ∧ (s.works.station 0).tc.episode = some episode ∧ (s.works.station 0).recovery = none
        ∧ (s.works.station 0).pair = [] ∧ (s.works.station 0).tc.state = .idle ∧ episode.reason = none)
      ∧ again.reason ≠ none ∧ ((threading .feeding episode [op (.thread 0)]).works.station 0).pair ≠ [] := by decide

theorem witness_ThreadedSucceedsOrTakesLockout_follows :
    let part := { contour .cutting with
      kerf := [entry 1 .cut, entry 2 .pending], prog := { (contour .cutting).prog with cursor := 1 } }
    let tail := { contour .tabCutting with kerf := [entry 2 .tail] }
    let back := fun c => working c fun x =>
      { x with
        recovery := some (recovery .startHole), pair := [op .confirm]
        tc := { x.tc with state := .locked, episode := some episode } }
    let passing := working tail fun x =>
      { x with
        pair := [op .confirm], tc := { x.tc with state := .locked, episode := some episode }
        pass := some
          { trigger := .tabs
            work := some { contour := 1, t := 2, approach := .forward, step := .threading, next := 0 } } }
    let down := on0 (threading .locked episode [op .confirm]) fun x => { x with state := .aborting }
    (((back part).works.station 0).recovery = some (recovery .startHole) ∧ (back part).works.traverseList 0 1 part ≠ []
        ∧ (back (contour .cutting)).works.traverseList 0 1 (contour .cutting) = []
        ∧ ({ episode with kind := .inKerf } : Episode).kind = .inKerf ∧ episode.kind = .startHole)
      ∧ ((passing.works.station 0).inPass 1 = true ∧ (passing.works.station 0).recovery = none
        ∧ passing.works.contour? 1 = some tail)
      ∧ ((down.works.station 0).state = .aborting ∧ (down.works.station 0).tc.state = .locked
        ∧ (down.works.station 0).tc.episode = some episode)
      ∧ (∀ id, (active.works.station 0).current = some id → active.works.contour? id = none) :=
  ⟨by decide, by decide, by decide, fun id h => by cases h⟩

/-- A THREADED in a teardown ends the episode, and lockout pending leaves the wire BROKEN for the teardown's cut (R108). -/
theorem test_threaded_in_a_teardown_leaves_the_wire_broken :
    let s := after (.threaded 0) (on0 (threading .locked { episode with lockoutPending := true } [op .confirm]) fun x =>
      { x with state := .aborting })
    (s.works.station 0).wire = .broken ∧ (s.works.station 0).tc.episode = none
      ∧ (s.works.station 0).pair.map Op.body = [.wireCut .teardown] := by decide

theorem witness_AbandonedActsOnItsReason :
    let missed := { episode with reason := some .miss, lastMiss := some .short, attempts := 1 }
    let s := threading .abandoning missed [op .abandon]
    (State.reset.works.station 0).tc.episode = none
      ∧ ((s.works.station 0).tc.episode = some missed ∧ (s.works.station 0).tc.state = .abandoning
        ∧ (s.works.station 0).state ≠ .aborting ∧ missed.reason = some .miss)
      ∧ (-(episode.offsetBound : Int) ≤ 4 + 1 ∧ (4 : Int) + 1 ≤ (episode.offsetBound : Int))
      ∧ ¬((5 : Int) + 1 ≤ (episode.offsetBound : Int)) ∧ missed.attempts ≠ missed.attemptLimit
      ∧ ({ missed with attempts := 3 } : Episode).attempts = missed.attemptLimit
      ∧ (∀ r ∈ [AbandonReason.broken, .lockout, .clearance], ({ missed with reason := some r } : Episode).reason = some r)
      ∧ (missed.relock = .retry ∧ ({ missed with relock := .fail } : Episode).relock = .fail)
      ∧ ({ missed with kind := .inKerf } : Episode).kind = .inKerf := by decide

theorem witness_AbandonedActsOnItsReason_ends :
    let spent := { episode with reason := some .broken, attempts := 3 }
    let s := threading .abandoning spent [op .abandon]
    let down := on0 s fun x => { x with state := .aborting }
    ((s.works.station 0).current = some 1 ∧ s.works.contour? 1 = some (contour .entering) ∧ spent.kind = .startHole
        ∧ spent.attempts = spent.attemptLimit ∧ (contour .entering).cfg.policy = .halt)
      ∧ ((down.works.station 0).state = .aborting ∧ (down.works.station 0).tc.episode = some spent
        ∧ (down.works.station 0).tc.state = .abandoning)
      ∧ ({ spent with reason := none } : Episode).reason = none
      ∧ (∀ id, (active.works.station 0).current = some id → active.works.contour? id = none) :=
  ⟨by decide, by decide, by decide, fun id h => by cases h⟩

/-- A lockout under FAIL ends the start-hole episode with LOCKOUT, and the contour's failure is pending with that cause. -/
theorem test_abandoned_fails_the_contour_with_its_cause :
    ((after (.abandoned 0)
      (threading .abandoning { episode with reason := some .lockout, relock := .fail } [op .abandon])).works.contour? 1).map
        (fun c => c.prog.pendingFailure) = some (some .lockout) := by decide

/-! ## Admission, the kerf store and the sequencer -/

/-- The first frame of contour 1. -/
def first : PathFrame := longPath 6

/-- Station 0 is ACTIVE with contour 1 DEFINED. -/
def open1 : State := holding active (contour .defined)

set_option maxRecDepth 20000 in
theorem witness_RefusedFramesOnlyReport :
    let p := fun f => on0 active fun x => { x with adm := { x.adm with program := some (f prog) } }
    let full := on0 active fun x => { x with adm := { x.adm with queue := List.replicate 128 (queued 1 1 .cutLine) } }
    let busy := on0 active fun x => { x with adm := { x.adm with handles := 0xFF } }
    stationOf first.station = some 0 ∧ (State.reset.works.station 0).state = .idle
      ∧ ((active.works.station 0).state = .active ∧ (active.works.station 0).adm.program = some prog)
      ∧ (((p fun x => { x with closed := true }).works.station 0).adm.program = some { prog with closed := true })
      ∧ ({ first with tag := 2 } : PathFrame).tag ≠ prog.tag ∧ first.tag = prog.tag
      ∧ ({ first with seq := 1 } : PathFrame).seq ≠ prog.expected ∧ first.seq = prog.expected
      ∧ first.fieldsOk = true ∧ ({ first with rest := [] } : PathFrame).fieldsOk = false
      ∧ 128 ≤ (full.works.station 0).adm.queue.length ∧ (active.works.station 0).adm.queue.length < 128
      ∧ (({ first with flags := 5 } : PathFrame).flags.getLsbD 2 = true ∧ (busy.works.station 0).adm.handles = 0xFF)
      ∧ (first.flags.getLsbD 2 = false ∧ first.kind.toNat ≤ 2 ∧ active.works.contour? first.contour.toNat = none)
      ∧ (open1.works.contour? first.contour.toNat = some (contour .defined)
        ∧ ({ first with ordinal := 2 } : PathFrame).ordinal.toNat ≠ (contour .defined).prog.arrived + 1)
      ∧ ((on0 active fun x => { x with adm := { x.adm with openContour := some 1 } }).works.station
          0).adm.openContour ≠ none := by decide

/-- Frames that no check refuses: a FIRST and LAST cut frame at the bounds of its contour, and a TABS. -/
theorem witness_RefusedFramesOnlyReport_accepted :
    let tabs : PathFrame := { first with kind := 5, flags := 0, contour := 0, ordinal := 0, length := 0, rest := [] }
    let c := contour .defined
    tabs.fieldsOk = true ∧ ¬tabs.kind.toNat ≤ 2 ∧ tabs.tag = prog.tag ∧ tabs.seq = prog.expected
      ∧ (open1.works.station 0).adm.openContour = none ∧ open1.works.judge 0 tabs = none
      ∧ (first.flags.getLsbD 0 = true ∧ c.state = .defined ∧ first.ordinal.toNat = c.prog.arrived + 1
        ∧ first.flags.getLsbD 1 = false ∧ first.ordinal.toNat ≠ c.cfg.segments ∧ c.cfg.station = 0) := by decide

theorem witness_AcceptedFramesJoinTheQueue :
    let absorbing := on0 (holding active { contour .failed with prog := { (contour .failed).prog with arrived := 1 } })
      fun x => { x with adm := { x.adm with openContour := some 1 } }
    let last : PathFrame := { first with ordinal := 2, flags := 6 }
    (stationOf first.station = some 0 ∧ open1.works.judge 0 first = none
        ∧ (open1.works.station 0).adm.program = some prog)
      ∧ (absorbing.works.judge 0 last = none ∧ last.flags.getLsbD 2 = true
        ∧ (absorbing.works.contour? last.contour.toNat).map Contour.state = some .failed) := by decide

set_option maxRecDepth 20000 in
theorem witness_AcceptedFramesJoinTheQueue_bytes :
    let arc : PathFrame := { first with kind := 1, flags := 9, rest := List.replicate 18 7 }
    receiveFrame first.bytes = some (.path first) ∧ pathKindOf first.kind = some .cutLine
      ∧ pathKindOf arc.kind = some .arcCw ∧ arc.flags.getLsbD 3 = true ∧ first.flags.getLsbD 3 = false
      ∧ arc.fieldsOk = true := by decide

/-- Works with this many free slots in which station 2 waits with contour 9 for 4 of them. -/
def waiting (n : Nat) : Works :=
  { State.reset.works with
    contours :=
      [(1, { contour .complete with prog := { (contour .complete).prog with reservation := 2 } }), (9, contour .entering)]
    pool := { free := n, waiting := ⟨none, none, some { contour := 9, need := 4 }, none⟩, lastGranted := 0 } }

theorem witness_ReservationsAreGrantedWholeOrWait :
    (2 ≤ open1.works.pool.free ∧ open1.works.contour? 1 = some (contour .defined)
        ∧ (contour .defined).prog.reservation = 0)
      ∧ (waiting 1).pool.free < 2 ∧ ((waiting 1).contour? 1).map (fun c => c.prog.reservation) = some 2
      ∧ (∀ g, open1.works.pool.waiting.get g = none)
      ∧ ((∀ q, (waiting 3).pool.waiting.get 2 = some q → (waiting 3).pool.free < q.need)
        ∧ (waiting 3).pool.waiting.get 0 = none)
      ∧ (rotation (waiting 4).pool.lastGranted = [1] ++ 2 :: [3, 0]
        ∧ (waiting 4).pool.waiting.get 1 = none ∧ (waiting 4).pool.waiting.get 2 = some { contour := 9, need := 4 }
        ∧ 4 ≤ (waiting 4).pool.free ∧ (waiting 4).contour? 9 = some (contour .entering)) :=
  ⟨by decide, by decide, by decide, by decide, ⟨fun q h => by cases h; decide, by decide⟩, by decide⟩

/-- After a release a station still waits whose need does not fit. -/
theorem witness_ReservationsAreGrantedWholeOrWait_released :
    ((waiting 1).release 1).pool.waiting.get 2 = some { contour := 9, need := 4 }
      ∧ ((waiting 1).release 1).contour? 9 = some (contour .entering)
      ∧ ((waiting 2).release 1).pool.waiting.get 2 = none := by decide

/-- Station 0 with the wire threaded and nothing outstanding, working on this contour. -/
def ready (c : Contour) : State := working c fun x => { x with wire := .threaded, activity := .cutting }

theorem witness_MainPassIssuesInOrder :
    let pending := { contour .cutting with kerf := [entry 1 .pending] }
    let tab := { contour .cutting with kerf := [entry 1 .cut], plan := { mode := .tab 2 .forward .plain, timeout := 1 } }
    let next := on0 (ready cutting) fun x => { x with adm := { x.adm with queue := [queued 1 2 .cutLine] } }
    ((Works.act 0 (ready pending).works).isSome = true ∧ (∀ r ∈ ((ready pending).works.station 0).returned, False)
        ∧ cutOp.body.isCutOrKerf = true)
      ∧ (((ready pending).works.station 0).state = .active ∧ ((ready pending).works.station 0).stopAwaited = false
        ∧ ((ready pending).works.station 0).returned = [] ∧ ((ready pending).works.station 0).current = some 1
        ∧ (ready pending).works.contour? 1 = some pending ∧ pending.prog.pendingFailure = none
        ∧ ((ready pending).works.station 0).recovery = none ∧ ((ready pending).works.station 0).tc.episode = none
        ∧ pending.state = .cutting ∧ ((ready pending).works.station 0).activity = .cutting ∧ pending.mainEnded = false
        ∧ ((ready pending).works.station 0).linkUp = true ∧ pending.lowestPending = some (entry 1 .pending)
        ∧ ((ready pending).works.station 0).wire = .threaded ∧ ((ready pending).works.station 0).pair = [])
      ∧ (tab.lowestPending = none ∧ tab.plan.tabOrdinal? = some (tab.h + 1))
      ∧ (cutting.lowestPending = none ∧ cutting.plan.tabOrdinal? ≠ some (cutting.h + 1)
        ∧ (next.works.station 0).adm.queue = queued 1 2 .cutLine :: [] ∧ (queued 1 2 .cutLine).ordinal = cutting.h + 1)
      := by decide

theorem witness_MainPassIssuesInOrder_settles :
    let other := State.reset.onWorks fun w => w.upd 1 fun x => { Station.start x with endProgram := some 4 }
    (∀ j, Works.act j State.reset.works = none)
      ∧ (Works.act 1 other.works).isSome = true
      ∧ ((0 : St) + 1 = 1 ∧ Works.act 0 other.works = none) := by decide

theorem witness_MainPassIssuesInOrder_requests :
    let s := on0 active fun x => { x with kerfRequest := .held }
    (s.works.station 0).kerfRequest = .held ∧ (active.works.station 0).kerfRequest ≠ .held
      ∧ (s.works.requestsDue.station 0).kerfRequest = .due := by decide

theorem witness_MainPassIssuesInOrder_kerf :
    let c := { contour .cutting with kerf := [entry 1 .cut, entry 3 .pending, entry 4 .pending] }
    c.kerfLaw ∧ c.lowestPending = some (entry 3 .pending)
      ∧ kerfInsert (entry 2 .pending) c.kerf
        = [entry 1 .cut, entry 2 .pending, entry 3 .pending, entry 4 .pending] := by
  refine ⟨?_, by decide, by decide⟩
  unfold Contour.kerfLaw
  decide

theorem witness_DirectivesAndTailsLeaveTheQueue :
    let at0 := fun k => on0 active fun x => { x with wire := .unthreaded, adm := { x.adm with queue := [queued 0 0 k] } }
    let done := on0 active fun x => { x with endProgram := some 4 }
    let tail := on0 (ready (contour .tailIntake)) fun x => { x with adm := { x.adm with queue := [queued 1 2 .cutLine] } }
    (∀ k ∈ [PathKind.travel, .dwell, .tabs, .endProgram],
        ((at0 k).works.station 0).adm.queue = queued 0 0 k :: [] ∧ (queued 0 0 k).seg.kind = k
          ∧ ((at0 k).works.station 0).current = none ∧ ((at0 k).works.station 0).pair = []
          ∧ ((at0 k).works.station 0).pass = none ∧ ((at0 k).works.station 0).wire = .unthreaded)
      ∧ (active.works.station 0).wire = .unknown
      ∧ ((done.works.station 0).endProgram = some 4 ∧ (done.works.station 0).directiveMarks = []
        ∧ (done.works.station 0).adm.program = some prog)
      ∧ ((tail.works.station 0).adm.queue = queued 1 2 .cutLine :: [] ∧ (queued 1 2 .cutLine).contour = 1
        ∧ tail.works.contour? 1 = some (contour .tailIntake)
        ∧ (queued 1 2 .cutLine).ordinal = (contour .tailIntake).cfg.segments ∧ (queued 1 1 .cutLine).ordinal ≠ 2) := by
  decide

/-- A marked END_PROGRAM builds its MARK DONE just before PROGRAM_END (R77, R78). -/
theorem test_marked_end_program_reports_its_mark_first :
    let s := on0 active fun x =>
      { x with endProgram := some 4, directiveMarks := [{ handle := 2, seq := 4, contour := 0 }] }
    (Works.act 0 s.works).map (fun w => (w.station 0).reports.map Report.body)
      = some [.mark 2 4 0 .done, .programEnd 1 4 0 0] := by decide

theorem witness_DirectivesAndTailsLeaveTheQueue_entry :
    let at1 := fun c => holding (on0 active fun x => { x with adm := { x.adm with queue := [queued 1 1 .cutLine] } }) c
    let tab := { contour .queued with plan := { mode := .tab 2 .forward .plain, timeout := 1 } }
    let enter := fun a w stop => working (contour .entering) fun x =>
      { x with activity := a, wire := w, stopAwaited := stop, adm := { x.adm with queue := [queued 1 1 .cutLine] } }
    let awaited := on0 (enter .cutting .broken true) fun x => { x with recovery := some (recovery .startHole) }
    (((at1 tab).works.station 0).adm.queue = queued 1 1 .cutLine :: [] ∧ (queued 1 1 .cutLine).first = true
        ∧ (at1 tab).works.contour? 1 = some tab ∧ tab.plan.tabOrdinal? ≠ none
        ∧ 32 ≤ (List.replicate 32 7).length ∧ ((at1 tab).works.station 0).deferred = []
        ∧ ((at1 tab).works.station 0).pair = [] ∧ ((at1 tab).works.station 0).pass = none)
      ∧ (∀ stop ∈ [true, false], ((enter .threading .unthreaded stop).works.station 0).activity = .threading
        ∧ ((enter .threading .unthreaded stop).works.station 0).stopAwaited = stop)
      ∧ (((enter .entering .unknown false).works.station 0).wire ≠ .unthreaded
        ∧ ((enter .entering .unthreaded false).works.station 0).wire = .unthreaded
        ∧ ((enter .entering .unthreaded false).works.station 0).adm.queue = queued 1 1 .cutLine :: []
        ∧ ((enter .waitKerf .unthreaded false).works.station 0).activity = .waitKerf)
      ∧ ((awaited.works.station 0).stopAwaited = true ∧ (awaited.works.station 0).pair = []
        ∧ (awaited.works.station 0).recovery = some (recovery .startHole)) := by decide

/-- A contour of two segments, its check passed, asks for its reservation with one slot left and a deferred contour on the
list: it waits with that contour deferred (R89). -/
theorem witness_DirectivesAndTailsLeaveTheQueue_race :
    let asking := fun r stop => working (contour .entering) fun x =>
      { x with
        kerfRequest := r, stopAwaited := stop, activity := .entering, deferred := [2]
        adm := { x.adm with queue := [queued 1 1 .cutLine] } }
    let full := fun r => { (asking r false).works with pool := { (asking r false).works.pool with free := 1 } }
    (∀ r ∈ [KerfRequest.held, .due], ∀ stop ∈ [true, false], ((asking r stop).works.station 0).kerfRequest = r
        ∧ ((asking r stop).works.station 0).recovery = none ∧ ((asking r stop).works.station 0).pair = []
        ∧ ((asking r stop).works.station 0).stopAwaited = stop ∧ 2 ≤ (asking r stop).works.pool.free)
      ∧ ((full .due).pool.free < (contour .entering).cfg.segments ∧ ((full .due).station 0).deferred = [2])
      ∧ (Works.act 0 (full .held)).isNone = true
      ∧ (Works.act 0 (full .due)).map (fun w =>
          (w.pool.waiting.get 0, (w.station 0).deferred, (w.station 0).activity, (w.station 0).current))
        = some (some { contour := 1, need := 2 }, [2], .waitKerf, some 1) := by decide

/-- An edit to TAB is late while the request of an ENTERING contour is held and the list is full (R26, R129). -/
theorem test_no_tab_edit_finds_room_behind_a_held_request :
    let s := working (contour .entering) fun x => { x with kerfRequest := .held, deferred := List.replicate 32 7 }
    s.works.editAllowed (contour .entering) { mode := .tab 3 .forward .plain, timeout := 1 } .service = false := by decide

/-- While a STOP is awaited with the pair empty, a TABS at the head still starts (R60, R76). -/
theorem test_tabs_starts_while_a_stop_is_awaited :
    (Works.act 0
      (on0 active fun x =>
        { x with stopAwaited := true, adm := { x.adm with queue := [queued 0 0 .tabs] } }).works).map
          (fun w => (w.station 0).adm.queue.length) = some 0 := by decide

/-- The pass record of contour 1 at this step. -/
def passAt (step : PassStep) (n : Nat) : PassRecord where
  trigger := .tabs
  work := some { contour := 1, t := 2, approach := .forward, step := step, next := n }

theorem witness_RecoveriesAndPassesTakeTheirSteps :
    let half := { contour .cutting with
      kerf := [entry 1 .cut, entry 2 .pending], prog := { (contour .cutting).prog with cursor := 1 } }
    let rec1 := fun step => on0 (ready half) fun x => { x with recovery := some { recovery step with next := some 0 } }
    let tail := { contour .tabCutting with kerf := [entry 1 .cut, entry 2 .tail] }
    let pass := fun step n => on0 (ready tail) fun x => { x with pass := some (passAt step n) }
    let list := fun d => on0 active fun x => { x with pass := some { trigger := .tabs, work := none }, deferred := d }
    half.needsCutting = true ∧ (contour .closing).needsCutting = false
      ∧ (∀ step ∈ [RecoveryStep.due, .wireCut, .travel, .startHole, .inKerf, .traverse],
        ((rec1 step).works.station 0).recovery = some { recovery step with next := some 0 }
          ∧ ((rec1 step).works.station 0).pair = [] ∧ ((rec1 step).works.station 0).returned = [])
      ∧ (((rec1 .traverse).works.traverseList 0 1 half)[0]? = some (.forward, entry 1 .cut)
        ∧ ((rec1 .traverse).works.station 0).wire = .threaded)
      ∧ (∀ step ∈ [PassStep.travel, .threading, .approach], ((pass step 0).works.station 0).pass = some (passAt step 0))
      ∧ (tail.traversePart { contour := 1, t := 2, approach := .forward, step := .approach, next := 0 })[0]?
        = some (entry 1 .cut)
      ∧ tail.nextTail .forward = some (entry 2 .tail)
      ∧ (((list [1]).works.station 0).deferred = 1 :: [] ∧ ((list []).works.station 0).deferred = []
        ∧ ((list []).works.station 0).current = none ∧ ((list []).works.station 0).failureCutDue = false) := by decide

theorem witness_RecoveriesAndPassesTakeTheirSteps_ends :
    let ended := on0 (holding active (contour .queued)) fun x =>
      { x with pass := some { trigger := .forced, work := none }, adm := { x.adm with queue := [queued 1 1 .cutLine] } }
    let tab := { contour .deferred with plan := { mode := .tab 2 .forward .plain, timeout := 1 } }
    let cutTail := { contour .tabCutting with kerf := [entry 1 .cut, entry 2 .tailCut] }
    ((ended.works.station 0).pass = some { trigger := .forced, work := none } ∧ (ended.works.station 0).deferred = []
        ∧ (ended.works.station 0).adm.queue = queued 1 1 .cutLine :: []
        ∧ ended.works.contour? (queued 1 1 .cutLine).contour = some (contour .queued))
      ∧ ((holding active tab).works.contour? 1 = some tab ∧ tab.plan.mode = .tab 2 .forward .plain)
      ∧ (cutTail.needsCutting = false ∧ cutTail.state = .tabCutting ∧ (contour .entering).state ≠ .cutting)
      ∧ (cutTail.traversePart { contour := 1, t := 2, approach := .forward, step := .approach, next := 1 }).length ≤ 1
      ∧ (contour .cutting).entry? 1 = none := by decide

theorem witness_RecoveriesAndPassesTakeTheirSteps_traverse :
    let c := { contour .cutting with
      kerf := [entry 1 .cut, entry 2 .cut, entry 3 .pending]
      cfg := { (contour .cutting).cfg with segments := 3 }, prog := { (contour .cutting).prog with cursor := 2 } }
    let at' := fun n => on0 (ready c) fun x => { x with recovery := some { recovery .traverse with next := some n } }
    ((at' 0).works.traverseList 0 1 c).length = 2 ∧ ((at' 0).works.traverseList 0 1 c)[1]? = some (.forward, entry 2 .cut)
      ∧ (∀ n ∈ [0, 1, 2], ((at' n).works.station 0).recovery = some { recovery .traverse with next := some n })
      ∧ ((at' 0).works.station 0).wire = .threaded ∧ ((at' 0).works.station 0).pair = [] := by decide

theorem witness_TeardownClearsTheProgram :
    let down := fun w pair => on0 (holding active (contour .queued)) fun x =>
      { x with state := .aborting, teardown := some .request, wire := w, pair := pair }
    (State.reset.works.station 0).state = .idle ∧ ((held { guard := true }).works.station 0).state = .held
      ∧ ((down .threaded [cutOp]).works.station 0).pair ≠ []
      ∧ (((down .threaded []).works.station 0).state = .aborting ∧ ((down .threaded []).works.station 0).wire = .threaded
        ∧ ((down .threaded []).works.station 0).linkUp = true)
      ∧ (((down .unknown []).works.station 0).wire = .unknown ∧ ((down .unknown []).works.station 0).stopAwaited = false
        ∧ (down .unknown []).works.contour? 1 = some (contour .queued) ∧ (contour .queued).state = .queued
        ∧ (contour .cutting).state.working = true ∧ (contour .complete).state.working = false) := by decide

theorem witness_TeardownClearsTheProgram_queue :
    let s := on0 active fun x =>
      { x with
        state := .aborting, wire := .unthreaded
        adm := { x.adm with queue := [queued 1 1 .cutLine, queued 1 2 .cutLine] } }
    (s.works.station 0).adm.queue.getLast? = some (queued 1 2 .cutLine) ∧ (s.works.station 0).wire = .unthreaded
      ∧ (active.works.station 0).adm.queue = [] := by decide

/-! ## The laws that every step keeps -/

theorem witness_StepKeepsTheBounds : State.reset.good ∧ ∃ t, step State.reset = .next t := by
  refine ⟨⟨⟨by decide, by decide, by decide⟩, fun st => ?_⟩, ⟨_, rfl⟩⟩
  match st with
  | 0 | 1 | 2 | 3 => exact ⟨by decide, by decide, by decide, pairOk_nil⟩

theorem witness_StepKeepsHoldAndEpisodeLaws :
    (held { guard := true }).holdLaw ∧ (threading .feeding { episode with offset := 5 } []).episodeLaw := by
  refine ⟨fun st => ?_, fun st => ?_⟩
  · match st with
    | 0 | 1 | 2 | 3 => unfold Station.holdLaw; decide
  · match st with
    | 0 =>
      refine ⟨by decide, fun e h => ?_⟩
      cases h
      decide
    | 1 | 2 | 3 =>
      refine ⟨by decide, fun e h => ?_⟩
      cases h

theorem witness_StepKeepsRangesAndTable :
    State.reset.gapInRange ∧ State.reset.tableLaw ∧ State.reset.kerfLaw ∧ State.reset.slotLaw ∧ tableSorted open1.works.contours = true
      ∧ (∀ p ∈ open1.works.contours, 1 ≤ p.1 ∧ p.1 ≤ 255) ∧ open1.slotLaw := by
  refine ⟨⟨by decide, fun st => ?_, by decide, by intro k h; cases h⟩, ⟨rfl, by intro p h; cases h⟩,
    fun p h => (by cases h), ⟨rfl, by intro p h; cases h⟩, by decide, by decide, rfl, by decide⟩
  have key : (State.reset.gap.channels.get st) = GapChannel.reset 4095 := by
    match st with
    | 0 | 1 | 2 | 3 => rfl
  rw [key]
  exact ⟨by decide, by decide, by decide, by decide, by decide, by decide, by decide, by decide, by decide, by decide,
    by decide, fun r h => (by cases h), fun q h => (by cases h)⟩

end Sys2Proof.Tests
end

section
/-! PROOFS. DEFINE_CONTOUR and DELETE_CONTOUR (R11 to R14): what the values of a definition are read as, which records can
be defined anew or freed, what each answers case by case, and the two statements about them. -/

namespace Sys2Proof.Machine

/-! ## Codes to named values (12.6) -/

/-- A station number is at most 3. -/
theorem stationOf_eq_some {b : Byte} (h : b.toNat ≤ 3) : stationOf b = some ⟨b.toNat, Nat.lt_succ_of_le h⟩ :=
  dif_pos (Nat.lt_succ_of_le h)

/-- A station number above 3 names no station. -/
theorem stationOf_eq_none {b : Byte} (h : 3 < b.toNat) : stationOf b = none :=
  dif_neg (by omega)

/-- A yes-or-no code is 0 or 1, and 1 is yes. -/
theorem boolOf_eq_some {b : Byte} (h : b.toNat ≤ 1) : boolOf b = some (decide (b.toNat = 1)) := by
  obtain h0 | h1 : b.toNat = 0 ∨ b.toNat = 1 := by omega
  · simp [boolOf, h0]
  · simp [boolOf, h1]

/-- A yes-or-no code above 1 names no value. -/
theorem boolOf_eq_none {b : Byte} (h : 1 < b.toNat) : boolOf b = none := by
  unfold boolOf
  split
  · omega
  · omega
  · rfl

/-- A failure policy code is 0 for SKIP or 1 for HALT. -/
theorem policyOf_eq_some {b : Byte} (h : b.toNat ≤ 1) :
    policyOf b = some (if b.toNat = 0 then .skip else .halt) := by
  obtain h0 | h1 : b.toNat = 0 ∨ b.toNat = 1 := by omega
  · simp [policyOf, h0]
  · simp [policyOf, h1]

/-- A failure policy code above 1 names no policy. -/
theorem policyOf_eq_none {b : Byte} (h : 1 < b.toNat) : policyOf b = none := by
  unfold policyOf
  split
  · omega
  · omega
  · rfl

/-! ## The nine values of a definition (R12) -/

/-- The arguments of a DEFINE_CONTOUR hold a value that R12 rules out. -/
def ConfigOutOfRange (a : List Byte) : Prop :=
  3 < (byteAt a 1).toNat ∨ (word16At a 8).toNat < 2 ∨ 4095 < (word16At a 8).toNat ∨ (byteAt a 10).toNat = 0
    ∨ 15 < (byteAt a 10).toNat ∨ (word16At a 8).toNat ≤ (byteAt a 10).toNat ∨ 15 < (byteAt a 12).toNat
    ∨ (byteAt a 13).toNat = 0 ∨ 15 < (byteAt a 13).toNat ∨ 1 < (byteAt a 11).toNat ∨ 1 < (byteAt a 14).toNat

/-- The nine values as the arguments carry them, for the station that byte 1 names. -/
def configAt (a : List Byte) (st : St) : ContourConfig where
  station := st
  threadX := word24At a 2
  threadY := word24At a 5
  segments := (word16At a 8).toNat
  leadIn := (byteAt a 10).toNat
  inKerf := decide ((byteAt a 11).toNat = 1)
  breakLimit := (byteAt a 12).toNat
  attemptLimit := (byteAt a 13).toNat
  policy := if (byteAt a 14).toNat = 0 then .skip else .halt

/-- Values that R12 rules out are read as no configuration: a code names no value, or a number is out of its range. -/
theorem configOf_eq_none {a : List Byte} (h : ConfigOutOfRange a) : configOf a = none := by
  unfold configOf
  split
  case h_1 st permit policy hst hpermit hpolicy =>
    have station_le : ¬3 < (byteAt a 1).toNat := fun h => by simp [stationOf_eq_none h] at hst
    have permit_le : ¬1 < (byteAt a 11).toNat := fun h => by simp [boolOf_eq_none h] at hpermit
    have policy_le : ¬1 < (byteAt a 14).toNat := fun h => by simp [policyOf_eq_none h] at hpolicy
    exact if_neg (by unfold ConfigOutOfRange at h; omega)
  case h_2 => rfl

/-- Values within R12 are read as the configuration they carry. -/
theorem configOf_eq_some {a : List Byte} {st : St} (h : ¬ConfigOutOfRange a) (hst : stationOf (byteAt a 1) = some st) :
    configOf a = some (configAt a st) := by
  simp only [ConfigOutOfRange, not_or] at h
  obtain ⟨-, h2, h3, h4, h5, h6, h7, h8, h9, hpermit, hpolicy⟩ := h
  simp only [configOf, hst, boolOf_eq_some (Nat.le_of_not_lt hpermit), policyOf_eq_some (Nat.le_of_not_lt hpolicy)]
  exact if_pos (by omega)

/-! ## Records that can be defined anew or freed (R13, R14) -/

/-- The terminal states by name (R7). -/
theorem ContourState.terminal_iff (k : ContourState) :
    k.terminal = true ↔ k = .complete ∨ k = .failed ∨ k = .aborted := by
  cases k <;> decide

/-- A record can be defined anew or freed when it is DEFINED, or terminal and not the open contour of its station. -/
theorem Works.replaceable_iff (w : Works) (id : Nat) (c : Contour) :
    w.replaceable id c = true ↔ c.state = .defined ∨
      ((c.state = .complete ∨ c.state = .failed ∨ c.state = .aborted)
        ∧ (w.station c.cfg.station).adm.openContour ≠ some id) := by
  simp [Works.replaceable, ← ContourState.terminal_iff]

/-- An ID can be defined when it is FREE or its record can be replaced. -/
theorem Works.definable_iff (w : Works) (id : Nat) :
    w.definable id = true ↔ ∀ c, w.contour? id = some c → w.replaceable id c = true := by
  unfold Works.definable
  split
  case h_1 hfree => simp [hfree]
  case h_2 c hc => simp [hc]

/-! ## Putting a record into the table and dropping one -/

/-- The works with record `c` under contour `id`. -/
def Works.putContour (w : Works) (id : Nat) (c : Contour) : Works := { w with contours := tablePut w.contours id c }

/-- The works with contour `id` FREE. -/
def Works.dropContour (w : Works) (id : Nat) : Works := { w with contours := tableDrop w.contours id }

/-- A record that was put is read back. -/
@[simp] theorem Works.contour?_putContour_same (w : Works) (id : Nat) (c : Contour) :
    (w.putContour id c).contour? id = some c := tableFind_put_same _ _ _

/-- A put leaves every other record as it was. -/
theorem Works.contour?_putContour_other (w : Works) {id j : Nat} (c : Contour) (h : j ≠ id) :
    (w.putContour id c).contour? j = w.contour? j := tableFind_put_other _ _ _ _ h

/-- Nothing is found under a key that no row has. -/
theorem tableFind_eq_none {α : Type} {t : List (Nat × α)} {k : Nat} (h : k ∉ t.map Prod.fst) : tableFind t k = none := by
  induction t with
  | nil => rfl
  | cons p t ih =>
    obtain ⟨j, b⟩ := p
    simp only [List.map_cons, List.mem_cons, not_or] at h
    simp [tableFind, Ne.symm h.1, ih h.2]

/-- A drop takes the first row of its key only; in the canonical form there is no other, so nothing is found there. -/
theorem tableFind_drop_same {α : Type} {t : List (Nat × α)} (k : Nat) (h : tableSorted t = true) :
    tableFind (tableDrop t k) k = none := by
  rw [tableSorted_iff] at h
  induction t with
  | nil => rfl
  | cons p t ih =>
    obtain ⟨j, b⟩ := p
    obtain ⟨above, sorted⟩ := List.pairwise_cons.mp h
    by_cases hj : j = k
    · subst hj
      simpa [tableDrop] using tableFind_eq_none fun hmem => Nat.lt_irrefl j (above j hmem)
    · simp [tableDrop, tableFind, hj, ih sorted]

/-- A drop of one key leaves every other as it was. -/
theorem tableFind_drop_other {α : Type} (t : List (Nat × α)) {k i : Nat} (h : i ≠ k) :
    tableFind (tableDrop t k) i = tableFind t i := by
  induction t with
  | nil => rfl
  | cons p t ih =>
    obtain ⟨j, b⟩ := p
    by_cases hj : j = k
    · subst hj
      simp [tableDrop, tableFind, Ne.symm h]
    · simp [tableDrop, tableFind, hj, ih]

/-- A dropped record is FREE, when the table is in its canonical form. -/
theorem Works.contour?_dropContour_same {w : Works} (id : Nat) (h : tableSorted w.contours = true) :
    (w.dropContour id).contour? id = none := tableFind_drop_same id h

/-- A drop leaves every other record as it was. -/
theorem Works.contour?_dropContour_other (w : Works) {id j : Nat} (h : j ≠ id) :
    (w.dropContour id).contour? j = w.contour? j := tableFind_drop_other _ h

/-! ## DEFINE_CONTOUR, case by case (R11 to R13) -/

/-- A DEFINE_CONTOUR on offer is answered by the unit's own rule. -/
theorem exec_defineContour_of_offers {s : State} {a : Authority} {f : MgmtFrame} {rest : List MgmtFrame}
    (h : s.offers .contour 0 15 a f rest) :
    exec .defineContour s = .next (defineContour a f { s with mgmt := rest }).upstream :=
  congrArg (fun t : State => t.finish) (State.serve_of_offers h defineContour)

/-- ID 0 names no record. -/
theorem defineContour_of_zero (a : Authority) {f : MgmtFrame} (s : State) (h0 : f.id = 0) :
    defineContour a f s = s.answer f .range (.contourId 0) := if_pos h0

/-- A value that R12 rules out is refused before the record is looked at. -/
theorem defineContour_of_outOfRange (a : Authority) {f : MgmtFrame} (s : State) (h0 : f.id ≠ 0)
    (hbad : ConfigOutOfRange f.args) : defineContour a f s = s.answerContour f .range := by
  simp [defineContour, h0, configOf_eq_none hbad]

/-- Values within R12 are judged by the record. -/
theorem defineContour_of_inRange (a : Authority) {f : MgmtFrame} (s : State) {st : St} (h0 : f.id ≠ 0)
    (hok : ¬ConfigOutOfRange f.args) (hst : stationOf (byteAt f.args 1) = some st) :
    defineContour a f s =
      if s.works.definable f.id = true then
        ({ s with works := s.works.putContour f.id (Contour.fresh (configAt f.args st)) } : State).answer f .ok
          (.contourState f.id (some .defined))
      else s.answerContour f .locked := by
  have shown : ((s.works.putContour f.id (Contour.fresh (configAt f.args st))).contour? f.id).map Contour.state
      = some .defined := by simp [Contour.fresh]
  simp only [defineContour, if_neg h0, configOf_eq_some hok hst]
  rw [← shown]
  rfl

/-- Settles O23: the ID, the values and the record are checked in that order, and an accepted definition is put into the
table. -/
theorem defineContourWritesAFreshRecord : Obligations.DefineContourWritesAFreshRecord := by
  unfold Obligations.DefineContourWritesAFreshRecord
  intro s a f rest h
  rw [exec_defineContour_of_offers h]
  refine ⟨fun h0 => ?zero, fun h0 hbad => ?range, fun h0 hok hnot => ?locked, fun st h0 hok hfree hst => ?accepted⟩
  case zero => rw [defineContour_of_zero a _ h0]
  case range => rw [defineContour_of_outOfRange a _ h0 hbad]; rfl
  case locked =>
    have station_le : (byteAt f.args 1).toNat ≤ 3 := Nat.le_of_not_lt fun above => hok (.inl above)
    have kept : ¬s.works.definable f.id = true := fun hd =>
      hnot fun c hc => (s.works.replaceable_iff f.id c).mp ((s.works.definable_iff f.id).mp hd c hc)
    rw [defineContour_of_inRange a _ h0 hok (stationOf_eq_some station_le), if_neg kept]
    rfl
  case accepted =>
    have taken : s.works.definable f.id = true :=
      (s.works.definable_iff f.id).mpr fun c hc => (s.works.replaceable_iff f.id c).mpr (hfree c hc)
    refine ⟨s.works.putContour f.id (Contour.fresh (configAt f.args st)), ?_, rfl,
      fun j hj => s.works.contour?_putContour_other _ hj, s.works.contour?_putContour_same _ _⟩
    rw [defineContour_of_inRange a _ h0 hok hst, if_pos taken]
    rfl

/-! ## DELETE_CONTOUR, case by case (R11, R14) -/

/-- A DELETE_CONTOUR on offer is answered by the unit's own rule. -/
theorem exec_deleteContour_of_offers {s : State} {a : Authority} {f : MgmtFrame} {rest : List MgmtFrame}
    (h : s.offers .contour 1 1 a f rest) :
    exec .deleteContour s = .next (deleteContour a f { s with mgmt := rest }).upstream :=
  congrArg (fun t : State => t.finish) (State.serve_of_offers h deleteContour)

/-- ID 0 names no record. -/
theorem deleteContour_of_zero (a : Authority) {f : MgmtFrame} (s : State) (h0 : f.id = 0) :
    deleteContour a f s = s.answer f .range (.contourId 0) := if_pos h0

/-- A FREE record is UNDEFINED. -/
theorem deleteContour_of_free (a : Authority) {f : MgmtFrame} (s : State) (h0 : f.id ≠ 0)
    (hfree : s.works.contour? f.id = none) :
    deleteContour a f s = s.answer f .undefined (.contourState f.id none) := by
  simp [deleteContour, h0, hfree, State.answerContour]

/-- A record that is not FREE is dropped from the table or LOCKED. -/
theorem deleteContour_of_record (a : Authority) {f : MgmtFrame} (s : State) {c : Contour} (h0 : f.id ≠ 0)
    (hc : s.works.contour? f.id = some c) (sorted : tableSorted s.works.contours = true) :
    deleteContour a f s =
      if s.works.replaceable f.id c = true then
        ({ s with works := s.works.dropContour f.id } : State).answer f .ok (.contourState f.id none)
      else s.answer f .locked (.contourState f.id (some c.state)) := by
  have shown : ((s.works.dropContour f.id).contour? f.id).map Contour.state = none := by
    simp [Works.contour?_dropContour_same f.id sorted]
  simp only [deleteContour, if_neg h0, hc, State.answerContour, Option.map_some]
  rw [← shown]
  rfl

/-- Settles O24: the ID, the presence of the record and then its state are checked, and an accepted deletion drops the record
from the table. -/
theorem deleteContourFreesTheRecord : Obligations.DeleteContourFreesTheRecord := by
  unfold Obligations.DeleteContourFreesTheRecord
  intro s a f rest h law
  obtain ⟨sorted, -⟩ := law
  rw [exec_deleteContour_of_offers h]
  refine ⟨fun h0 => ?zero, fun h0 hfree => ?undefined, fun c h0 hc => ⟨fun hnot => ?locked, fun hfree => ?accepted⟩⟩
  case zero => rw [deleteContour_of_zero a _ h0]
  case undefined => rw [deleteContour_of_free a { s with mgmt := rest } h0 hfree]; rfl
  case locked =>
    rw [deleteContour_of_record a { s with mgmt := rest } h0 hc sorted, if_neg (mt (s.works.replaceable_iff f.id c).mp hnot)]
    rfl
  case accepted =>
    refine ⟨s.works.dropContour f.id, ?_, rfl, Works.contour?_dropContour_same f.id sorted,
      fun j hj => s.works.contour?_dropContour_other hj⟩
    rw [deleteContour_of_record a { s with mgmt := rest } h0 hc sorted, if_pos ((s.works.replaceable_iff f.id c).mpr hfree)]
    rfl

end Sys2Proof.Machine
end

section
/-! PROOFS. The judgement of a plan edit (R24 to R26): h as a maximum, the class of an edit, the late test, the rows of the
edit matrix, and the statement about them. -/

namespace Sys2Proof.Machine

/-! ## The highest main-pass ordinal (R26, R85) -/

/-- The ordinals of the main-pass entries, in the order of the kerf record. -/
def Contour.mainOrdinals (c : Contour) : List Nat := (c.kerf.filter KerfEntry.isMain).map KerfEntry.ordinal

theorem Contour.mem_mainOrdinals {c : Contour} {k : Nat} :
    k ∈ c.mainOrdinals ↔ ∃ e ∈ c.kerf, e.isMain = true ∧ e.ordinal = k := by
  simp [Contour.mainOrdinals, and_assoc]

/-- The 0 that h starts from makes it the maximum of a list that is never empty. -/
theorem Contour.max?_mainOrdinals (c : Contour) : (0 :: c.mainOrdinals).max? = some c.h := by
  simp only [List.max?_cons', Contour.mainOrdinals, List.foldl_map, List.foldl_filter]
  rfl

theorem Contour.le_h {c : Contour} {e : KerfEntry} (he : e ∈ c.kerf) (hm : e.isMain = true) : e.ordinal ≤ c.h :=
  (List.max?_eq_some_iff.mp c.max?_mainOrdinals).2 _ (.tail _ (Contour.mem_mainOrdinals.mpr ⟨e, he, hm, rfl⟩))

theorem Contour.h_attained (c : Contour) : c.h = 0 ∨ ∃ e ∈ c.kerf, e.isMain = true ∧ e.ordinal = c.h := by
  have hmem : c.h ∈ 0 :: c.mainOrdinals := (List.max?_eq_some_iff.mp c.max?_mainOrdinals).1
  exact (List.mem_cons.mp hmem).imp_right Contour.mem_mainOrdinals.mp

/-! ## The class of an edit (R24) -/

/-- A structure edit changes the mode by more than the separation confirm of a TAB plan. -/
theorem PlanMode.structureEdit_iff (present requested : PlanMode) :
    present.structureEdit requested = true ↔ present ≠ requested
      ∧ ∀ t ap cf cf', ¬(present = .tab t ap cf ∧ requested = .tab t ap cf') := by
  cases present with
  | plain | catcher | pause => cases requested <;> simp [PlanMode.structureEdit]
  | tab t ap cf =>
    cases requested with
    | plain | catcher | pause => simp [PlanMode.structureEdit]
    | tab t' ap' cf' =>
      simp only [PlanMode.structureEdit, Bool.or_eq_true, bne_iff_ne, PlanMode.tab.injEq]
      grind

/-! ## The late test (R26) -/

/-- The three conditions of R26: the main pass goes on, a contour that becomes TAB finds room in the deferred tab list, and
the tab ordinal is above h. -/
theorem Works.lateEdit_iff (w : Works) (c : Contour) (p : Plan) :
    w.lateEdit c p = true ↔ c.mainEnded = false
      ∧ ¬(p.tabOrdinal? ≠ none ∧ c.plan.tabOrdinal? = none
        ∧ Config.deferredSize ≤ (w.station c.cfg.station).deferred.length)
      ∧ ∀ t, p.tabOrdinal? = some t → c.h + 1 ≤ t := by
  unfold Works.lateEdit
  cases c.mainEnded with
  | true => simp
  | false =>
    cases p.tabOrdinal? with
    | none => simp
    | some t => simp [-Bool.decide_and]

/-! ## The rows of the edit matrix (R25) -/

theorem editMatrix_beforeWork {k : ContourState} (hk : k = .defined ∨ k = .queued) (e : Bool) (a : Authority) :
    editMatrix k e a = .ok := by
  obtain rfl | rfl := hk <;> rfl

theorem editMatrix_mainPass {k : ContourState} (hk : k = .entering ∨ k = .cutting) (e : Bool) (a : Authority) :
    editMatrix k e a = if e = true then (if a = .service then .late else .locked) else .ok := by
  obtain rfl | rfl := hk <;> cases e <;> cases a <;> rfl

theorem editMatrix_tailHeld {k : ContourState} (hk : k = .tailIntake ∨ k = .deferred) (e : Bool) (a : Authority) :
    editMatrix k e a = if e = false ∧ a = .service then .ok else .locked := by
  obtain rfl | rfl := hk <;> cases e <;> cases a <;> rfl

theorem editMatrix_closed {k : ContourState}
    (hk : k = .tabCutting ∨ k = .closing ∨ k = .complete ∨ k = .failed ∨ k = .aborted) (e : Bool) (a : Authority) :
    editMatrix k e a = .locked := by
  obtain rfl | rfl | rfl | rfl | rfl := hk <;> rfl

/-! ## What the judgement answers in each row -/

variable {w : Works} {c : Contour} {p : Plan} {a : Authority}

theorem Works.editAllowed_beforeWork (hk : c.state = .defined ∨ c.state = .queued) : w.editAllowed c p a = true := by
  simp only [Works.editAllowed, editMatrix_beforeWork hk]

theorem Works.editAllowed_mainPass (hk : c.state = .entering ∨ c.state = .cutting) :
    w.editAllowed c p a = true ↔
      (c.plan.mode.structureEdit p.mode = true → a = .service ∧ w.lateEdit c p = true) := by
  rw [Works.editAllowed, editMatrix_mainPass hk]
  by_cases he : c.plan.mode.structureEdit p.mode = true
  · by_cases ha : a = .service <;> simp [he, ha]
  · simp [he]

theorem Works.editAllowed_tailHeld (hk : c.state = .tailIntake ∨ c.state = .deferred) :
    w.editAllowed c p a = true ↔ ¬c.plan.mode.structureEdit p.mode = true ∧ a = .service := by
  rw [Works.editAllowed, editMatrix_tailHeld hk, Bool.not_eq_true]
  split
  case h_1 hv => simpa using hv
  case h_2 hv => simpa using hv
  case h_3 hv => split at hv <;> cases hv

theorem Works.editAllowed_closed
    (hk : c.state = .tabCutting ∨ c.state = .closing ∨ c.state = .complete ∨ c.state = .failed ∨ c.state = .aborted) :
    w.editAllowed c p a = false := by
  simp only [Works.editAllowed, editMatrix_closed hk]

end Sys2Proof.Machine
end

section
/-! PROOFS. The statement about the judgement of plan edits (R24 to R26). -/

namespace Sys2Proof.Machine

/-- Settles O27: h is the maximum of the main-pass ordinals, and each row of the edit matrix answers as R25 says, with the
late test of R26 for a structure edit from SERVICE in the main pass. -/
theorem planEditsFollowTheMatrix : Obligations.PlanEditsFollowTheMatrix := by
  unfold Obligations.PlanEditsFollowTheMatrix
  refine ⟨fun c => ⟨fun e he hm => Contour.le_h he hm, c.h_attained⟩, fun w c p a => ?_⟩
  simp only [← PlanMode.structureEdit_iff]
  refine ⟨Works.editAllowed_beforeWork, fun hk he => ?confirmation, fun hk he ha => ?planner, fun hk he ha => ?service,
    Works.editAllowed_tailHeld, Works.editAllowed_closed⟩
  case confirmation => exact (Works.editAllowed_mainPass hk).mpr fun h => absurd h he
  case planner => simp [← Bool.not_eq_true, Works.editAllowed_mainPass hk, he, ha]
  case service => simp only [Works.editAllowed_mainPass hk, he, ha, true_implies, true_and, Works.lateEdit_iff]

end Sys2Proof.Machine
end

section
/-! PROOFS. Link errors (R38, R177): what a sound frame is, which bytes form no frame, what a link error changes, and the
statement about them. -/

namespace Sys2Proof.Machine

/-! ## Bytes that form a frame (R177) -/

/-- Sound bytes have room for a length byte, a class or code and a check, and agree with both the length byte and the
check. -/
theorem sound_iff (bytes : List Byte) :
    sound bytes = true ↔ 4 ≤ bytes.length ∧ (byteAt bytes 0).toNat + 3 = bytes.length
      ∧ bytes.drop (bytes.length - 2) = checkBytes (frameCheck (bytes.take (bytes.length - 2))) := by
  cases bytes with
  | nil => simp [sound]
  | cons len rest => simp [sound, byteAt, and_assoc]

/-- The payload of four bytes or more begins with the byte behind the length byte; the body is what else lies before the
check. -/
theorem payload_eq_cons {bytes : List Byte} (h : 4 ≤ bytes.length) :
    ∃ body, payload bytes = byteAt bytes 1 :: body ∧ body.length + 4 = bytes.length := by
  match bytes, h with
  | _ :: cls :: rest, h =>
    simp only [List.length_cons] at h
    refine ⟨rest.take (rest.length - 2), ?_, ?_⟩
    · have count : rest.length + 1 + 1 - 3 = rest.length - 2 + 1 := by omega
      simp [payload, byteAt, count]
    · simp only [List.length_take, List.length_cons]
      omega

/-- What sound bytes form is decided by the class and the number of the bytes. -/
theorem receiveFrame_eq_none_of_sound {bytes : List Byte} (h : sound bytes = true) :
    receiveFrame bytes = none ↔ 64 < bytes.length ∨ 1 < (byteAt bytes 1).toNat
      ∨ (byteAt bytes 1 = 0 ∧ bytes.length < 17) ∨ (byteAt bytes 1 = 1 ∧ bytes.length < 8) := by
  obtain ⟨body, hpay, hlen⟩ := payload_eq_cons ((sound_iff bytes).mp h).1
  have path_class : byteAt bytes 1 = 0 ↔ (byteAt bytes 1).toNat = 0 := BitVec.toNat_inj.symm
  have mgmt_class : byteAt bytes 1 = 1 ↔ (byteAt bytes 1).toNat = 1 := BitVec.toNat_inj.symm
  simp only [receiveFrame, h, hpay, Bool.true_and, decide_eq_true_eq, path_class, mgmt_class]
  split
  case isFalse hlong => exact iff_of_true rfl (by omega)
  case isTrue hshort =>
    split
    case isTrue hpath =>
      split
      case isTrue hbody => exact iff_of_false nofun (by omega)
      case isFalse hbody => exact iff_of_true rfl (by omega)
    case isFalse hnoPath =>
      split
      case isTrue hmgmt =>
        split
        case isTrue hbody => exact iff_of_false nofun (by omega)
        case isFalse hbody => exact iff_of_true rfl (by omega)
      case isFalse hnoMgmt => exact iff_of_true rfl (by omega)

/-- Bytes that form no frame: unsound, too many, of neither class, or too few for their class. Fewer than four bytes have no
class of their own, and are too few for either. -/
theorem receiveFrame_eq_none_iff (bytes : List Byte) :
    receiveFrame bytes = none ↔
      (64 < bytes.length ∨ (byteAt bytes 0).toNat + 3 ≠ bytes.length
        ∨ bytes.drop (bytes.length - 2) ≠ checkBytes (frameCheck (bytes.take (bytes.length - 2)))
        ∨ 1 < (byteAt bytes 1).toNat
        ∨ (byteAt bytes 1 = 0 ∧ bytes.length < 17) ∨ (byteAt bytes 1 = 1 ∧ bytes.length < 8)) := by
  by_cases h : sound bytes = true
  · obtain ⟨-, hlen, hcheck⟩ := (sound_iff bytes).mp h
    simp only [receiveFrame_eq_none_of_sound h, hlen, hcheck, ne_eq, not_true_eq_false, false_or]
  · have formless : receiveFrame bytes = none := by simp only [receiveFrame, h, Bool.false_and, Bool.false_eq_true, if_false]
    rw [sound_iff] at h
    refine iff_of_true formless ?_
    by_cases hlen : 4 ≤ bytes.length
    · by_cases hcount : (byteAt bytes 0).toNat + 3 = bytes.length
      · exact .inr (.inr (.inl fun hcheck => h ⟨hlen, hcount, hcheck⟩))
      · exact .inr (.inl hcount)
    · have classes : byteAt bytes 1 = 0 ∨ byteAt bytes 1 = 1 ∨ 1 < (byteAt bytes 1).toNat := by bv_omega
      obtain path | mgmt | other := classes
      · exact .inr (.inr (.inr (.inr (.inl ⟨path, by omega⟩))))
      · exact .inr (.inr (.inr (.inr (.inr ⟨mgmt, by omega⟩))))
      · exact .inr (.inr (.inr (.inl other)))

/-! ## Link errors (R38, R177) -/

/-- Bytes that form no frame are a link error. -/
theorem exec_linkError_of_none {bytes : List Byte} (s : State) (h : receiveFrame bytes = none) :
    exec (.linkError bytes) s = .next s.linkError.upstream := by
  simp only [exec, execLinkError, h, State.finish]

/-- A PATH frame for a station above 3 is a link error. -/
theorem exec_pathFrame_of_noStation {f : PathFrame} (s : State) (h : 3 < f.station.toNat) :
    exec (.pathFrame f) s = .next s.linkError.upstream := by
  simp only [exec, execPathFrame, State.takePath, stationOf_eq_none h, State.finish]

/-- Settles O4: the tests of R177 one by one, and the two commands that end in a link error. -/
theorem framesThatFailTheirTestsAreLinkErrors : Obligations.FramesThatFailTheirTestsAreLinkErrors := by
  unfold Obligations.FramesThatFailTheirTestsAreLinkErrors
  exact ⟨receiveFrame_eq_none_iff,
    fun s => ⟨fun _ h => exec_linkError_of_none s h, fun _ h => exec_pathFrame_of_noStation s h⟩⟩

end Sys2Proof.Machine
end

section
/-! PROOFS. The checks of admission (R39 to R41, R44): the field checks by kind code, the judgement check by check, what a
refusal does, and the statement about them. -/

namespace Sys2Proof.Machine

/-! ## Kinds by their codes (R34, R35, 12.2, 12.6) -/

theorem PathKind.code_le (k : PathKind) : k.code ≤ 6 := by cases k <;> decide

/-- A byte names a kind when it holds the kind's code. -/
theorem pathKindOf_eq_some_iff {b : Byte} {k : PathKind} : pathKindOf b = some k ↔ b.toNat = k.code := by
  unfold pathKindOf
  split
  case h_8 =>
    have code_le := k.code_le
    simp only [imp_false] at *
    simp only [reduceCtorEq, false_iff]
    omega
  all_goals
    rename_i hb
    rw [hb]
    cases k <;> decide

/-- Codes above 6 name no kind. -/
theorem lt_of_pathKindOf_eq_none {b : Byte} (h : pathKindOf b = none) : 6 < b.toNat := by
  unfold pathKindOf at h
  split at h
  case h_8 =>
    simp only [imp_false] at *
    omega
  all_goals cases h

theorem PathKind.isCut_iff (k : PathKind) : k.isCut = true ↔ k.code ≤ 2 := by cases k <;> decide

theorem PathKind.hasEnd_iff (k : PathKind) : k.hasEnd = true ↔ k.code ≤ 3 := by cases k <;> decide

theorem PathKind.isArc_iff (k : PathKind) : k.isArc = true ↔ k.code = 1 ∨ k.code = 2 := by cases k <;> decide

theorem PathKind.lengthOk_iff (k : PathKind) (n : Nat) :
    k.lengthOk n = true ↔ (k.code ≤ 3 → 1 ≤ n ∧ n ≤ 1000000) ∧ (k.code = 4 → 1 ≤ n ∧ n ≤ 65535)
      ∧ (5 ≤ k.code → n = 0) := by
  cases k <;> simp [PathKind.lengthOk, PathKind.code]

/-- A frame is a cut frame when its code is one of the three cut kinds'. -/
theorem PathFrame.isCut_iff (f : PathFrame) : f.isCut = true ↔ f.kind.toNat ≤ 2 := by
  unfold PathFrame.isCut PathFrame.kindD
  cases hk : pathKindOf f.kind with
  | none =>
    have above := lt_of_pathKindOf_eq_none hk
    simp only [Option.getD_none, PathKind.isCut, Bool.false_eq_true, false_iff]
    omega
  | some k => rw [Option.getD_some, PathKind.isCut_iff, pathKindOf_eq_some_iff.mp hk]

/-- The field checks of a frame whose code names a kind, test by test (R40). -/
theorem PathFrame.fieldsOk_of_kind {f : PathFrame} {k : PathKind} (h : pathKindOf f.kind = some k) :
    f.fieldsOk = true ↔ f.rest.length = k.restLength f.hasTaper ∧ f.flags.toNat < 16
      ∧ k.lengthOk f.length.toNat = true
      ∧ (k.isCut = true → f.contour ≠ 0 ∧ 1 ≤ f.ordinal.toNat ∧ f.ordinal.toNat ≤ 4095
          ∧ (f.isFirst = true ↔ f.ordinal.toNat = 1))
      ∧ (¬k.isCut = true → f.contour = 0 ∧ f.ordinal = 0 ∧ f.isFirst = false ∧ f.isLast = false)
      ∧ (k.hasEnd = true → f.feed.toNat ≤ 15) ∧ (¬k.hasEnd = true → f.feed = 0 ∧ f.hasTaper = false) := by
  have first_iff : f.isFirst = decide (f.ordinal.toNat = 1) ↔ (f.isFirst = true ↔ f.ordinal.toNat = 1) := by
    rw [Bool.eq_iff_iff, decide_eq_true_iff]
  simp only [PathFrame.fieldsOk, h]
  by_cases hc : k.isCut = true <;> by_cases he : k.hasEnd = true <;> simp [hc, he, and_assoc, first_iff]

/-- The field checks by kind code: the tests of R40 with the ranges of R35. -/
theorem PathFrame.fieldsOk_iff (f : PathFrame) :
    f.fieldsOk = true ↔
      (let k := f.kind.toNat
       let n := f.length.toNat
       k ≤ 6 ∧ f.flags.toNat < 16
        ∧ f.rest.length = (if k ≤ 3 then 6 else 0) + (if k = 1 ∨ k = 2 then 6 else 0)
            + (if f.flags.getLsbD 3 = true then 6 else 0)
        ∧ (k ≤ 3 → 1 ≤ n ∧ n ≤ 1000000 ∧ f.feed.toNat ≤ 15)
        ∧ (k = 4 → 1 ≤ n ∧ n ≤ 65535) ∧ (5 ≤ k → n = 0)
        ∧ (4 ≤ k → f.feed = 0 ∧ f.flags.getLsbD 3 = false)
        ∧ (k ≤ 2 → f.contour ≠ 0 ∧ 1 ≤ f.ordinal.toNat ∧ f.ordinal.toNat ≤ 4095
            ∧ (f.flags.getLsbD 0 = true ↔ f.ordinal.toNat = 1))
        ∧ (3 ≤ k → f.contour = 0 ∧ f.ordinal = 0 ∧ f.flags.getLsbD 0 = false ∧ f.flags.getLsbD 1 = false)) := by
  cases hk : pathKindOf f.kind with
  | none =>
    have above := lt_of_pathKindOf_eq_none hk
    simp only [PathFrame.fieldsOk, hk, Bool.false_eq_true, false_iff]
    omega
  | some k =>
    have code_le := k.code_le
    rw [PathFrame.fieldsOk_of_kind hk]
    simp only [pathKindOf_eq_some_iff.mp hk, PathKind.restLength, PathKind.isCut_iff, PathKind.hasEnd_iff,
      PathKind.isArc_iff, PathKind.lengthOk_iff, PathFrame.isFirst, PathFrame.isLast, PathFrame.hasTaper, Nat.not_le,
      code_le, true_and]
    constructor
    · rintro ⟨hrest, hflags, ⟨hmove, hdwell, hnone⟩, hcut, hdirective, hfeed, hclear⟩
      exact ⟨hflags, hrest, fun h => ⟨(hmove h).1, (hmove h).2, hfeed h⟩, hdwell, hnone, hclear, hcut, hdirective⟩
    · rintro ⟨hflags, hrest, hmove, hdwell, hnone, hclear, hcut, hdirective⟩
      have hrange : k.code ≤ 3 → 1 ≤ f.length.toNat ∧ f.length.toNat ≤ 1000000 := fun h =>
        ⟨(hmove h).1, (hmove h).2.1⟩
      exact ⟨hrest, hflags, ⟨hrange, hdwell, hnone⟩, hcut, hdirective, fun h => (hmove h).2.2, hclear⟩

/-! ## The judgement, check by check (R39, R41) -/

section

variable {w : Works} {st : St} {f : PathFrame} {p : Program} {c : Contour}

theorem Works.judge_of_idle (h : (w.station st).state = .idle) : w.judge st f = some .noProgram := by
  simp only [Works.judge, h]

theorem Works.judge_of_aborting (h : (w.station st).state = .aborting) : w.judge st f = some .aborting := by
  simp only [Works.judge, h]

/-- The checks behind the first two, for a station that has a program. -/
theorem Works.judge_of_program (h : (w.station st).state = .active ∨ (w.station st).state = .held)
    (hp : (w.station st).adm.program = some p) :
    w.judge st f =
      if p.closed = true then some .closed
      else if f.tag ≠ p.tag then some .stale
      else if f.seq ≠ p.expected then some .seq
      else if f.fieldsOk = false then some .badField
      else if 128 ≤ (w.station st).adm.queue.length then some .full
      else if f.isMarked = true ∧ (w.station st).adm.handles = 0xFF then some .markBusy
      else if f.isCut = true ∧ w.foreign st f.contour.toNat = true then some .undefined
      else if w.breaksChain st f = true then some .chain
      else none := by
  obtain h | h := h <;> simp [Works.judge, h, hp]

/-- The four checks that are left when the first six pass. -/
theorem Works.judge_of_fields (h : (w.station st).state = .active ∨ (w.station st).state = .held)
    (hp : (w.station st).adm.program = some p) (hopen : p.closed = false) (htag : f.tag = p.tag)
    (hseq : f.seq = p.expected) (hfields : f.fieldsOk = true) :
    w.judge st f =
      if 128 ≤ (w.station st).adm.queue.length then some .full
      else if f.isMarked = true ∧ (w.station st).adm.handles = 0xFF then some .markBusy
      else if f.isCut = true ∧ w.foreign st f.contour.toNat = true then some .undefined
      else if w.breaksChain st f = true then some .chain
      else none := by
  simp only [Works.judge_of_program h hp, hopen, htag, hseq, hfields, if_false, Bool.false_eq_true, Bool.true_eq_false,
    ne_eq, not_true_eq_false]

/-- Check 9 fails unless the record is one of the frame's station. -/
theorem Works.foreign_iff (id : Nat) :
    w.foreign st id = true ↔ ∀ c, w.contour? id = some c → c.cfg.station ≠ st := by
  unfold Works.foreign
  split
  case h_1 hfree => simp [hfree]
  case h_2 c hc => simp [hc]

/-- Check 10 for a directive: no contour may be open. -/
theorem Works.breaksChain_of_directive (h : ¬f.isCut = true) :
    w.breaksChain st f = true ↔ (w.station st).adm.openContour ≠ none := by
  simp [Works.breaksChain, h, Option.isSome_iff_ne_none]

/-- Check 10 for a cut frame: FIRST, the ordinal and LAST against the open contour and the record. -/
theorem Works.breaksChain_of_cut (h : f.isCut = true) (hc : w.contour? f.contour.toNat = some c) :
    w.breaksChain st f = true ↔
      (f.isFirst = true ∧ ((w.station st).adm.openContour ≠ none ∨ c.state ≠ .defined))
        ∨ (f.isFirst = false ∧ (w.station st).adm.openContour ≠ some f.contour.toNat)
        ∨ f.ordinal.toNat ≠ c.prog.arrived + 1
        ∨ ¬(f.isLast = true ↔ f.ordinal.toNat = c.cfg.segments) := by
  have last_iff : f.isLast = decide (f.ordinal.toNat = c.cfg.segments)
      ↔ (f.isLast = true ↔ f.ordinal.toNat = c.cfg.segments) := by
    rw [Bool.eq_iff_iff, decide_eq_true_iff]
  simp only [Works.breaksChain, h, hc, if_true, Bool.or_eq_true, bne_iff_ne, ne_eq, last_iff, or_assoc]
  cases hf : f.isFirst with
  | true => simp [Option.isSome_iff_ne_none, or_assoc]
  | false => simp

/-! ## The refusal (R44) -/

/-- A refused frame adds its REFUSAL report, and nothing else changes. -/
theorem exec_pathFrame_of_refused {s : State} {reason : RefusalReason} (hst : stationOf f.station = some st)
    (h : s.works.judge st f = some reason) :
    exec (.pathFrame f) s = .next ({ s with works := s.works.refuse st f reason } : State).upstream := by
  simp only [exec, execPathFrame, State.finish, State.takePath, hst, State.onWorks, Works.takePathFrame, h]

end

/-- Settles O50: the field checks by kind code; then each check in its turn, refused with its reason by the judgement, until
none is left. -/
theorem refusedFramesOnlyReport : Obligations.RefusedFramesOnlyReport := by
  unfold Obligations.RefusedFramesOnlyReport
  refine ⟨PathFrame.fieldsOk_iff, fun s f st hst => ?_⟩
  intro x refuse isCut named
  have refused : ∀ reason, s.works.judge st f = some reason → refuse reason :=
    fun reason h => exec_pathFrame_of_refused hst h
  refine ⟨fun h => refused _ (Works.judge_of_idle h), fun h => refused _ (Works.judge_of_aborting h),
    fun p hstate hp => ?program⟩
  have judged := Works.judge_of_program (f := f) hstate hp
  refine ⟨fun hclosed => refused _ ?closed, fun hopen htag => refused _ ?stale,
    fun hopen htag hseq => refused _ ?seq, fun hopen htag hseq => ⟨fun hfields => refused _ ?badField, ?fields⟩⟩
  case closed => simp [judged, hclosed]
  case stale => simp [judged, hopen, htag]
  case seq => simp [judged, hopen, htag, hseq]
  case badField => simp [judged, hopen, htag, hseq, hfields]
  have left := fun hfields => Works.judge_of_fields hstate hp hopen htag hseq hfields
  refine ⟨fun hfields hfull => refused _ ?full, fun hfields hroom =>
    ⟨fun hmark hheld => refused _ ?markBusy, fun hhandle => ?handle⟩⟩
  case full => rw [left hfields, if_pos hfull]
  case markBusy => rw [left hfields, if_neg (Nat.not_le.mpr hroom), if_pos ⟨hmark, hheld⟩]
  have notBusy : ¬(f.isMarked = true ∧ x.adm.handles = 0xFF) := fun ⟨hmark, hheld⟩ =>
    hhandle.elim (fun hclear => Bool.false_ne_true (hclear.symm.trans hmark)) fun hfree => hfree hheld
  replace left := left hfields
  rw [if_neg (Nat.not_le.mpr hroom), if_neg notBusy] at left
  refine ⟨fun hcut hforeign => refused _ ?undefined, fun hdir hrun => refused _ ?directiveChain,
    fun hdir hrun => ?directive, fun c hcut hc hown => ⟨fun hbroken => refused _ ?cutChain, fun hwhole => ?cut⟩⟩
  case undefined => rw [left, if_pos ⟨f.isCut_iff.mpr hcut, (Works.foreign_iff _).mpr hforeign⟩]
  case directiveChain =>
    have directive : ¬f.isCut = true := mt f.isCut_iff.mp hdir
    rw [left, if_neg fun h => directive h.1, if_pos ((Works.breaksChain_of_directive directive).mpr hrun)]
  case directive =>
    have directive : ¬f.isCut = true := mt f.isCut_iff.mp hdir
    rw [left, if_neg fun h => directive h.1, if_neg fun h => (Works.breaksChain_of_directive directive).mp h hrun]
  case cutChain =>
    rw [left, if_neg fun h => (Works.foreign_iff _).mp h.2 c hc hown,
      if_pos ((Works.breaksChain_of_cut (f.isCut_iff.mpr hcut) hc).mpr hbroken)]
  case cut =>
    rw [left, if_neg fun h => (Works.foreign_iff _).mp h.2 c hc hown,
      if_neg fun h => hwhole ((Works.breaksChain_of_cut (f.isCut_iff.mpr hcut) hc).mp h)]

end Sys2Proof.Machine
end

section
/-! PROOFS. PART RESET (R17, R51, R80, R94, R95, R110, R173, R191): the state it leaves, per station and per line, and the
statement about it. -/

namespace Sys2Proof.Machine

/-- PART RESET leaves the state after a reset that finds the commands and the pins as they stand, with some store. -/
theorem exec_partReset_afterReset (s : State) :
    ∃ store n, exec .partReset s = .next (State.afterReset s.pending s.lines store n) := by
  simp only [exec, execPartReset]
  split
  · exact ⟨_, _, rfl⟩
  · exact ⟨_, _, rfl⟩

section

variable (pending : List Instr) (lines : PerStation Lines) (store : CalStore) (n : Nat)

/-- Every station is as after a reset. -/
theorem State.afterReset_station (st : St) : (State.afterReset pending lines store n).works.station st = Station.reset := by
  match st with
  | 0 | 1 | 2 | 3 => rfl

/-- No station waits for slots. -/
theorem State.afterReset_waiting (st : St) : (State.afterReset pending lines store n).works.pool.waiting.get st = none := by
  match st with
  | 0 | 1 | 2 | 3 => rfl

/-- Every line is OFF and RISING, at the level of its pin. -/
theorem State.afterReset_line (st : St) (k : Line) :
    (State.afterReset pending lines store n).line st k = ((lines.get st).line k).reset := by
  match st with
  | 0 | 1 | 2 | 3 => cases k <;> rfl

/-- Every station is IDLE, and so refuses every frame (R51). -/
theorem State.afterReset_judge (st : St) (f : PathFrame) :
    (State.afterReset pending lines store n).works.judge st f = some .noProgram :=
  Works.judge_of_idle (by rw [State.afterReset_station]; rfl)

end

/-- Settles O2: the state after a reset, field by field. -/
theorem partResetLeavesTheTablesGiven : Obligations.PartResetLeavesTheTablesGiven := by
  unfold Obligations.PartResetLeavesTheTablesGiven
  intro s
  obtain ⟨store, n, hexec⟩ := exec_partReset_afterReset s
  refine ⟨State.afterReset s.pending s.lines store n, hexec, rfl, rfl, rfl, rfl, rfl, rfl, rfl, rfl, rfl,
    State.afterReset_waiting _ _ _ _, rfl, rfl, rfl, rfl, rfl, rfl, rfl, State.afterReset_station _ _ _ _,
    State.afterReset_line _ _ _ _, fun f st => State.afterReset_judge _ _ _ _ st f⟩

end Sys2Proof.Machine
end

section
/-! PROOFS. The requests of the NOTICE unit (R185, R186): what new enables and a clearing do to the flags bit by bit and to
the pending notice, and the statement about the three requests. -/

namespace Sys2Proof.Machine

/-! ## Enables and flags, bit by bit (R185, R186) -/

/-- A mask of 16 bits is zero unless some bit of it is set. -/
theorem mask16_ne_zero_iff (v : BitVec 16) : v ≠ 0 ↔ ∃ i, v.getLsbD i = true := by
  have zero_iff : v = 0 ↔ ∀ i, v.getLsbD i = false := by
    constructor
    · rintro rfl i
      exact BitVec.getLsbD_zero
    · exact fun clear => BitVec.eq_of_getLsbD_eq fun i _ => (clear i).trans BitVec.getLsbD_zero.symm
  simp only [ne_eq, zero_iff, Classical.not_forall, Bool.not_eq_false]

/-- Taking one mask's bits from another, bit by bit; beyond bit 15 both sides are clear. -/
theorem getLsbD_and_not (v mask : BitVec 16) (i : Nat) :
    (v &&& ~~~mask).getLsbD i = (v.getLsbD i && !mask.getLsbD i) := by
  rw [BitVec.getLsbD_and, BitVec.getLsbD_not]
  by_cases hi : i < 16
  · rw [decide_eq_true hi, Bool.true_and]
  · rw [BitVec.getLsbD_of_ge v i (Nat.le_of_not_lt hi), Bool.false_and, Bool.false_and]

/-- New enables make a notice pending when they turn ON the enable of a flag that is set, and leave one that is pending. -/
theorem Notices.setEnables_pending_iff (u : Notices) (mask : BitVec 16) :
    (u.setEnables mask).pending = true ↔ u.pending = true
      ∨ ∃ i, u.flags.getLsbD i = true ∧ mask.getLsbD i = true ∧ u.enables.getLsbD i = false := by
  have turned_on (i : Nat) : (u.flags &&& mask &&& ~~~u.enables).getLsbD i = true
      ↔ u.flags.getLsbD i = true ∧ mask.getLsbD i = true ∧ u.enables.getLsbD i = false := by
    rw [getLsbD_and_not, BitVec.getLsbD_and]
    simp only [Bool.and_eq_true, Bool.not_eq_true', and_assoc]
  simp only [Notices.setEnables, Bool.or_eq_true, bne_iff_ne, mask16_ne_zero_iff, turned_on]

/-- A clearing keeps the flags outside its mask. -/
theorem Notices.clear_flags_getLsbD (u : Notices) (mask : BitVec 16) (i : Nat) :
    (u.clear mask).flags.getLsbD i = (u.flags.getLsbD i && !mask.getLsbD i) := getLsbD_and_not u.flags mask i

/-! ## The three requests (R186) -/

section

variable {s : State} {a : Authority} {f : MgmtFrame} {rest : List MgmtFrame}

/-- A NOTICE_ENABLE on offer sets the enables and answers with them and the flags. -/
theorem exec_noticeEnable_of_offers (h : s.offers .notice 0 2 a f rest) :
    exec .noticeEnable s =
      .next ((({ s with mgmt := rest } : State).onNotices fun u => u.setEnables (word16At f.args 0)).answer f .ok
        (.noticeEnables (word16At f.args 0) s.works.notices.flags)).upstream :=
  congrArg (fun t : State => t.finish) (State.serve_of_offers h noticeEnable)

/-- A NOTICE_READ on offer only answers. -/
theorem exec_noticeRead_of_offers (h : s.offers .notice 1 0 a f rest) :
    exec .noticeRead s =
      .next (({ s with mgmt := rest } : State).answer f .ok
        (.notices s.works.notices.flags s.works.notices.enables s.works.notices.pending)).upstream :=
  congrArg (fun t : State => t.finish) (State.serve_of_offers h noticeRead)

/-- A NOTICE_CLEAR on offer clears the flags of its mask and answers with those left. -/
theorem exec_noticeClear_of_offers (h : s.offers .notice 2 2 a f rest) :
    exec .noticeClear s =
      .next ((({ s with mgmt := rest } : State).onNotices fun u => u.clear (word16At f.args 0)).answer f .ok
        (.noticeFlags (s.works.notices.clear (word16At f.args 0)).flags)).upstream :=
  congrArg (fun t : State => t.finish) (State.serve_of_offers h noticeClear)

end

/-- Settles O32: each request is answered by its own rule; the pending notice after NOTICE_ENABLE and the flags after
NOTICE_CLEAR are those the bitwise facts describe. -/
theorem noticeRequestsActOnFlagsAndEnables : Obligations.NoticeRequestsActOnFlagsAndEnables := by
  unfold Obligations.NoticeRequestsActOnFlagsAndEnables
  intro s a f rest s0 u mask
  refine ⟨fun h => ?enable, exec_noticeRead_of_offers, fun h => ?clear⟩
  case enable =>
    exact ⟨(u.setEnables mask).pending, exec_noticeEnable_of_offers h, u.setEnables_pending_iff mask⟩
  case clear =>
    exact ⟨(u.clear mask).flags, exec_noticeClear_of_offers h, u.clear_flags_getLsbD mask⟩

end Sys2Proof.Machine
end

section
/-! PROOFS. What every operation of the works keeps: the bounds of a station (R45, R57, R182), the law of holds (R53, R144),
the law of episodes (R100, R109), and of the Contour Table its keys (R1), the order of its kerf records (R85) and its slots
(R81, R86, R88). One relation between two works says it; the operations that change a few fields are shown to keep it, and
the larger ones are put together from them. -/

namespace Sys2Proof.Machine

/-! ## One station -/

/-- Reasons are held only while the station is HELD: what is left of the law of holds between a clearing and the test for
RESUMED that follows it (R146). -/
def Station.holdsWhenHeld (x : Station) : Prop := x.holds ≠ Holds.none → x.state = .held

theorem Station.holdLaw.whenHeld {x : Station} (h : x.holdLaw) : x.holdsWhenHeld := h.mpr

/-- A change of a station keeps its bounds, its episode's law and what it holds within HELD. -/
structure Station.Keeps (x y : Station) : Prop where
  ok : x.ok → y.ok
  episode : x.tc.episodeLaw → y.tc.episodeLaw
  whenHeld : x.holdsWhenHeld → y.holdsWhenHeld

theorem Station.Keeps.refl (x : Station) : x.Keeps x := ⟨id, id, id⟩

theorem Station.Keeps.trans {x y z : Station} (h : x.Keeps y) (h' : y.Keeps z) : x.Keeps z :=
  ⟨h'.ok ∘ h.ok, h'.episode ∘ h.episode, h'.whenHeld ∘ h.whenHeld⟩

/-! ## One contour -/

/-- The states in which a contour holds no slots: it has not been entered, or its work has ended (R86, R88). -/
def Contour.atRest (c : Contour) : Prop :=
  c.state = .defined ∨ c.state = .complete ∨ c.state = .failed ∨ c.state = .aborted

/-- Contour `id` holds no slots in such a state. -/
def Works.restsAt (w : Works) (id : Nat) : Prop := ∀ c, w.contour? id = some c → c.atRest → c.prog.reservation = 0

/-- Every kerf record is in ordinal order (R85). -/
def Works.kerfLaw (w : Works) : Prop := ∀ p ∈ w.contours, p.2.kerfLaw

/-! ## The works -/

/-- A change of the works keeps every station's laws, the keys of the table, the order of the kerf records and the sum of the
slots; the law of holds at the stations of `P`, and that a contour at rest has no slots at the contours of `E`. -/
structure Works.KeepsAt (P : St → Prop) (E : Nat → Prop) (w w' : Works) : Prop where
  keys : w'.contours.map Prod.fst = w.contours.map Prod.fst
  kerf : w.kerfLaw → w'.kerfLaw
  slots : w'.slots = w.slots
  rests : ∀ id, E id → w.restsAt id → w'.restsAt id
  station : ∀ st, (w.station st).Keeps (w'.station st)
  hold : ∀ st, P st → (w.station st).holdLaw → (w'.station st).holdLaw

/-- Every law is kept at every station and every contour. -/
abbrev Works.Keeps (w w' : Works) : Prop := w.KeepsAt (fun _ => True) (fun _ => True) w'

variable {P : St → Prop} {E : Nat → Prop} {w v u : Works}

theorem Works.KeepsAt.refl (w : Works) : w.KeepsAt P E w :=
  ⟨rfl, id, rfl, fun _ _ => id, fun _ => .refl _, fun _ _ => id⟩

theorem Works.KeepsAt.trans (h : w.KeepsAt P E v) (h' : v.KeepsAt P E u) : w.KeepsAt P E u where
  keys := h'.keys.trans h.keys
  kerf := h'.kerf ∘ h.kerf
  slots := h'.slots.trans h.slots
  rests id hid := h'.rests id hid ∘ h.rests id hid
  station st := (h.station st).trans (h'.station st)
  hold st hst := h'.hold st hst ∘ h.hold st hst

/-- What is kept everywhere is kept at any stations and contours. -/
theorem Works.KeepsAt.at (h : w.Keeps v) : w.KeepsAt P E v :=
  { h with rests := fun id _ => h.rests id trivial, hold := fun st _ => h.hold st trivial }

/-! ## Changes of a station -/

/-- A change of one station keeps what that station keeps. -/
theorem Works.keepsAt_upd {st : St} {f : Station → Station} (hk : (w.station st).Keeps (f (w.station st)))
    (hh : P st → (w.station st).holdLaw → (f (w.station st)).holdLaw) : w.KeepsAt P E (w.upd st f) where
  keys := rfl
  kerf := id
  slots := rfl
  rests _ _ := id
  station j := by
    by_cases hj : j = st
    · subst hj; rwa [Works.station_upd_same]
    · rw [Works.station_upd_other _ _ _ _ hj]; exact .refl _
  hold j hP := by
    by_cases hj : j = st
    · subst hj; rw [Works.station_upd_same]; exact hh hP
    · rw [Works.station_upd_other _ _ _ _ hj]; exact id

/-- What the laws of a station look at. -/
def Station.lawView (x : Station) :=
  (x.adm.queue.length, x.reports.length, x.lost, x.pair, x.tc.ok, x.tc.fail, x.tc.episode, x.holds, x.state)

/-- A station with the same view is under the same laws. -/
theorem Station.laws_of_view {x y : Station} (h : y.lawView = x.lawView) :
    x.Keeps y ∧ (x.holdLaw → y.holdLaw) := by
  simp only [Station.lawView, Prod.mk.injEq] at h
  obtain ⟨hq, hr, hl, hp, hok, hfail, he, hh, hs⟩ := h
  refine ⟨⟨?_, ?_, ?_⟩, ?_⟩
  · simp only [Station.ok, hq, hr, hl, hp]; exact id
  · simp only [Threader.episodeLaw, hok, hfail, he]; exact id
  · simp only [Station.holdsWhenHeld, hh, hs]; exact id
  · simp only [Station.holdLaw, hh, hs]; exact id

/-- A change of a station, after a change of the works that keeps its laws. -/
theorem Works.KeepsAt.upd_station {st : St} {f : Station → Station} (h : w.KeepsAt P E v)
    (hk : (v.station st).Keeps (f (v.station st))) (hh : (v.station st).holdLaw → (f (v.station st)).holdLaw) :
    w.KeepsAt P E (v.upd st f) := h.trans (Works.keepsAt_upd hk fun _ => hh)

/-- A change that the laws of a station do not look at keeps them. -/
theorem Works.KeepsAt.upd {st : St} {f : Station → Station} (h : w.KeepsAt P E v)
    (hv : (f (v.station st)).lawView = (v.station st).lawView) : w.KeepsAt P E (v.upd st f) :=
  h.upd_station (Station.laws_of_view hv).1 (Station.laws_of_view hv).2

/-- A change of the bounded fields alone keeps the laws if it keeps the bounds. -/
theorem Works.KeepsAt.upd_bounds {st : St} {f : Station → Station} (h : w.KeepsAt P E v)
    (ht : (f (v.station st)).tc = (v.station st).tc) (hh : (f (v.station st)).holds = (v.station st).holds)
    (hs : (f (v.station st)).state = (v.station st).state) (hok : (v.station st).ok → (f (v.station st)).ok) :
    w.KeepsAt P E (v.upd st f) :=
  h.upd_station ⟨hok, by rw [ht]; exact id, by simp only [Station.holdsWhenHeld, hh, hs]; exact id⟩
    (by simp only [Station.holdLaw, hh, hs]; exact id)

/-- Operations leaving the pair or joining it keep the laws if they keep the fourth law (R57). -/
theorem Works.KeepsAt.upd_pair {st : St} {f : Station → Station} (ops : List Op) (h : w.KeepsAt P E v)
    (hv : (f (v.station st)).lawView = ({ v.station st with pair := ops } : Station).lawView)
    (hp : pairOk (v.station st).pair → pairOk ops) : w.KeepsAt P E (v.upd st f) := by
  have hview := Station.laws_of_view hv
  exact h.upd_station (Station.Keeps.trans (y := { v.station st with pair := ops })
    ⟨fun ⟨hq, hr, hl, hpair⟩ => ⟨hq, hr, hl, hp hpair⟩, id, id⟩ hview.1) fun hl => hview.2 hl

/-- A change of the threading controller keeps the laws if it keeps the episode's. -/
theorem Works.KeepsAt.modThreader {st : St} {f : Threader → Threader} (h : w.KeepsAt P E v)
    (hf : (v.station st).tc.episodeLaw → (f (v.station st).tc).episodeLaw) : w.KeepsAt P E (v.modThreader st f) :=
  h.upd_station ⟨id, hf, id⟩ id

/-- A pair of fewer operations keeps the fourth law. -/
theorem pairOk_tail {op : Op} {rest : List Op} (h : pairOk (op :: rest)) : pairOk rest := by
  obtain ⟨hl, ht⟩ := h
  refine ⟨by simp only [List.length_cons] at hl; omega, fun o ho hto => ?_⟩
  have := ht o (List.mem_cons_of_mem _ ho) hto
  have := List.length_pos_of_mem ho
  simp only [List.length_cons] at *
  omega

/-! ## Changes of the table and the pool -/

theorem Works.contour?_congr {w v : Works} (h : v.contours = w.contours) (id : Nat) : v.contour? id = w.contour? id := by
  simp only [Works.contour?, h]

/-- A change of anything but the stations, the table and the free slots keeps the laws. -/
theorem Works.KeepsAt.parts (h : w.KeepsAt P E v) (hs : u.stations = v.stations) (hc : u.contours = v.contours)
    (hf : u.pool.free = v.pool.free) : w.KeepsAt P E u :=
  h.trans
    { keys := by rw [hc]
      kerf := by simp only [Works.kerfLaw, hc]; exact id
      slots := by simp only [Works.slots, hc, hf]
      rests := fun id _ => by simp only [Works.restsAt, Works.contour?_congr hc]; exact fun h => h
      station := fun st => by simp only [Works.station, hs]; exact .refl _
      hold := fun st _ => by simp only [Works.station, hs]; exact id }

theorem Works.KeepsAt.raise {n : Nat} (h : w.KeepsAt P E v) : w.KeepsAt P E (v.raise n) := h.parts rfl rfl rfl

/-- Every record of a table with one record changed is as it was, or is that record changed. -/
theorem mem_tableModify {α : Type} {k : Nat} {f : α → α} {p : Nat × α} :
    ∀ {t : List (Nat × α)}, p ∈ tableModify t k f → p ∈ t ∨ ∃ a, tableFind t k = some a ∧ p = (k, f a) ∧ (k, a) ∈ t
  | (j, a) :: t, h => by
    by_cases hj : j = k
    · subst hj
      simp only [tableModify, if_true, List.mem_cons] at h
      rcases h with rfl | h
      · exact .inr ⟨a, by simp [tableFind], rfl, by simp⟩
      · exact .inl (List.mem_cons_of_mem _ h)
    · simp only [tableModify, hj, if_false, List.mem_cons] at h
      rcases h with rfl | h
      · exact .inl (by simp)
      · rcases mem_tableModify h with h | ⟨b, hb, hp, hm⟩
        · exact .inl (List.mem_cons_of_mem _ h)
        · exact .inr ⟨b, by simp [tableFind, hj, hb], hp, List.mem_cons_of_mem _ hm⟩

/-- A change of the kerf record of a contour that keeps the order keeps every order. -/
theorem Works.kerfLaw_modContour {id : Nat} {f : Contour → Contour}
    (h : ∀ c, w.contour? id = some c → c.kerfLaw → (f c).kerfLaw) (hw : w.kerfLaw) : (w.modContour id f).kerfLaw := by
  intro p hp
  rcases mem_tableModify hp with hp | ⟨c, hc, rfl, hm⟩
  · exact hw p hp
  · exact h c hc (hw _ hm)

/-- A change of a contour that keeps its kerf record's order and its reservation keeps the laws; only at that contour, when
the change takes it to rest, is the law of reservations left open. -/
theorem Works.keepsAt_modContour {id : Nat} {f : Contour → Contour}
    (hk : ∀ c, w.contour? id = some c → c.kerfLaw → (f c).kerfLaw)
    (hr : ∀ c, w.contour? id = some c → (f c).prog.reservation = c.prog.reservation)
    (he : ∀ c, E id → w.contour? id = some c → (f c).atRest → c.atRest) : w.KeepsAt P E (w.modContour id f) where
  keys := tableModify_keys _ _ _
  kerf := Works.kerfLaw_modContour hk
  slots := by
    cases hc : w.contour? id with
    | none => simp only [Works.slots, Works.modContour, tableModify_of_none f id w.contours hc]
    | some c =>
      have hs := tableModify_sum (fun c : Contour => c.prog.reservation) f id w.contours c hc
      simp only [Works.slots, Works.modContour]
      rw [hr c hc] at hs
      omega
  rests j hE h c hc hrest := by
    by_cases hj : j = id
    · subst hj
      rw [Works.contour?_modContour_same, Option.map_eq_some_iff] at hc
      obtain ⟨d, hd, rfl⟩ := hc
      rw [hr d hd]
      exact h d hd (he d hE hd hrest)
    · rw [Works.contour?_modContour_other _ _ _ _ hj] at hc
      exact h c hc hrest
  station _ := .refl _
  hold _ _ h := h

/-- A change of a contour that leaves its kerf record and its reservation, and takes it to rest only from rest. -/
theorem Works.KeepsAt.modContour {id : Nat} {f : Contour → Contour} (h : w.KeepsAt P E v)
    (hk : ∀ c, (f c).kerf = c.kerf) (hr : ∀ c, (f c).prog.reservation = c.prog.reservation)
    (he : ∀ c, (f c).atRest → c.atRest) : w.KeepsAt P E (v.modContour id f) :=
  h.trans (Works.keepsAt_modContour (fun c _ h => by simpa only [Contour.kerfLaw, hk] using h) (fun c _ => hr c)
    fun c _ _ => he c)

/-- An entry of a contour changed in anything but its ordinal. -/
theorem Works.KeepsAt.modEntry {id k : Nat} {f : KerfEntry → KerfEntry} (h : w.KeepsAt P E v)
    (hf : ∀ e, (f e).ordinal = e.ordinal) : w.KeepsAt P E (v.modContour id fun c => c.modEntry k f) :=
  h.trans (Works.keepsAt_modContour (fun _ _ hc => Contour.kerfLaw_modEntry hc k hf) (fun _ _ => rfl) fun _ _ _ h => h)

/-- A record joins the kerf record of a contour at its ordinal's place (R87). -/
theorem Works.KeepsAt.record {id : Nat} {e : KerfEntry} (h : w.KeepsAt P E v) :
    w.KeepsAt P E (v.modContour id fun c => c.record e) :=
  h.trans (Works.keepsAt_modContour (fun _ _ hc => Contour.kerfLaw_record hc e) (fun _ _ => rfl) fun _ _ _ h => h)

end Sys2Proof.Machine
end

section
/-! PROOFS. The shared operations keep the laws: reports, marks, holds, reservations and releases (R46, R48, R86 to R90, R144 to
R146, R182). -/

namespace Sys2Proof.Machine

variable {P : St → Prop} {E : Nat → Prop} {w v u : Works}

/-! ## Reports, marks and PROGRESS (R46, R48, R182) -/

theorem Works.KeepsAt.report {st : St} {b : ReportBody} (h : w.KeepsAt P E v) : w.KeepsAt P E (v.report st b) := by
  by_cases hr : (v.station st).reports.length < Config.reportQueueSize
  · rw [Works.report_of_room b hr]
    refine h.upd_bounds rfl rfl rfl fun ⟨hq, _, hl, hp⟩ => ⟨hq, ?_, hl, hp⟩
    rw [List.length_append]
    exact Nat.succ_le_of_lt hr
  · rw [Works.report_of_full b hr]
    exact .raise (h.upd_bounds rfl rfl rfl fun ⟨hq, hr, _, hp⟩ => ⟨hq, hr, saturate_le _ _, hp⟩)

theorem Works.KeepsAt.markReport {st : St} {m : MarkRef} {o : MarkOutcome} (h : w.KeepsAt P E v) :
    w.KeepsAt P E (v.markReport st m o) := .upd (.report h) rfl

theorem Works.KeepsAt.markReport? {st : St} {m : Option MarkRef} {o : MarkOutcome} (h : w.KeepsAt P E v) :
    w.KeepsAt P E (v.markReport? st m o) := by
  cases m with
  | none => exact h
  | some m => exact .markReport h

theorem Works.KeepsAt.markReports {st : St} {ms : List MarkRef} {o : MarkOutcome} (h : w.KeepsAt P E v) :
    w.KeepsAt P E (v.markReports st ms o) := by
  induction ms generalizing v with
  | nil => exact h
  | cons m ms ih => exact ih (.markReport h)

theorem Works.KeepsAt.progressUpdate {st : St} (h : w.KeepsAt P E v) : w.KeepsAt P E (v.progressUpdate st) := by
  unfold Works.progressUpdate
  split
  · exact h
  · split
    · exact .upd h (by simp [Station.lawView])
    · exact .report h

/-- Entries leaving the queue keep its bound. -/
theorem Works.KeepsAt.upd_queue {st : St} {q : Station → List QEntry} {seq : Seq} (h : w.KeepsAt P E v)
    (hq : (q (v.station st)).length ≤ (v.station st).adm.queue.length) :
    w.KeepsAt P E (v.upd st fun x => { x with adm := { x.adm with queue := q x }.setConsumed seq }) :=
  h.upd_bounds rfl rfl rfl fun ⟨hql, hr, hl, hp⟩ => ⟨Nat.le_trans hq hql, hr, hl, hp⟩

theorem Works.KeepsAt.consumeHead {st : St} (h : w.KeepsAt P E v) : w.KeepsAt P E (v.consumeHead st) := by
  unfold Works.consumeHead
  split
  · exact h
  · rename_i e rest hq
    exact .progressUpdate (.upd_queue (q := fun _ => rest) h (by simp [hq]))

/-! ## Holds (R144 to R146) -/

theorem Works.KeepsAt.callStop {st : St} (h : w.KeepsAt P E v) : w.KeepsAt P E (v.upd st Station.callStop) :=
  h.upd (by simp [Station.lawView])

/-- The set that new reasons have joined is not empty. -/
theorem Holds.union_without_ne_none {old rs : Holds} (h : rs.without old ≠ Holds.none) :
    old.union (rs.without old) ≠ Holds.none := by
  intro hall
  refine h ?_
  simp only [Holds.union, Holds.zip, Holds.none, Holds.mk.injEq, Bool.or_eq_false_iff] at hall
  obtain ⟨⟨-, h1⟩, ⟨-, h2⟩, ⟨-, h3⟩, ⟨-, h4⟩, ⟨-, h5⟩, ⟨-, h6⟩, ⟨-, h7⟩, ⟨-, h8⟩, ⟨-, h9⟩⟩ := hall
  simp only [Holds.without, Holds.zip] at h1 h2 h3 h4 h5 h6 h7 h8 h9 ⊢
  simp only [h1, h2, h3, h4, h5, h6, h7, h8, h9, Holds.none]

/-- Reasons join the set of a station that is HELD from then on. -/
theorem Works.KeepsAt.addHolds {st : St} {rs : Holds} {code : Option Byte} {cause : Option Cause}
    (h : w.KeepsAt P E v) : w.KeepsAt P E (v.addHolds st rs code cause) := by
  simp only [Works.addHolds]
  split
  · rename_i hc
    obtain ⟨-, hne⟩ := hc
    have hall := Holds.union_without_ne_none hne
    exact .callStop (.raise (.report (h.upd_station ⟨fun h => h, fun h => h, fun _ _ => rfl⟩ fun _ =>
      ⟨fun _ => hall, fun _ => rfl⟩)))
  · exact h

/-- Reasons leave the set: only the law of holds of that station is left open. -/
theorem Works.keepsAt_removeHolds (w : Works) (st : St) (rs : Holds) : w.KeepsAt (· ≠ st) E (w.removeHolds st rs) :=
  Works.keepsAt_upd ⟨fun h => h, fun h => h, fun h hne => h fun h0 => hne (by
    simp only [h0, Holds.without, Holds.zip, Holds.none, Bool.false_and])⟩ fun h => absurd rfl h

/-- The test for RESUMED makes good the law of holds after a clearing (R146). -/
theorem Works.KeepsAt.resume {st : St} {why : Clearing} (h : w.KeepsAt (· ≠ st) E v) :
    w.KeepsAt P E (v.resumeIfClear st why) := by
  simp only [Works.resumeIfClear]
  split
  · rename_i hc
    obtain ⟨-, hnone⟩ := hc
    have hactive : ({ v.station st with state := .active } : Station).holdLaw :=
      ⟨fun hh => (nomatch hh), fun hh => absurd hnone hh⟩
    have hv : w.KeepsAt (· ≠ st) E (v.upd st fun x => { x with state := .active }) :=
      h.upd_station ⟨fun h => h, fun h => h, fun _ => hactive.whenHeld⟩ fun _ => hactive
    refine .report { hv with hold := fun j _ hj => ?_ }
    by_cases hjs : j = st
    · subst hjs
      rw [Works.station_upd_same]
      exact hactive
    · exact hv.hold j hjs hj
  · rename_i hc
    refine { h with hold := fun j _ hj => ?_ }
    by_cases hjs : j = st
    · subst hjs
      exact ⟨fun hs hn => hc ⟨hs, hn⟩, (h.station j).whenHeld hj.whenHeld⟩
    · exact h.hold j hjs hj

/-! ## Reservations (R86 to R90) -/

/-- A grant to a contour in ENTERING keeps the laws: what it takes from the free slots it gives to the contour (R86). -/
theorem Works.KeepsAt.grant {st : St} {id need : Nat} {c : Contour} (h : w.KeepsAt P E v) (hc : v.contour? id = some c)
    (hs : c.state = .entering) (hn : need ≤ v.pool.free) : w.KeepsAt P E (v.grant st id need) :=
  h.trans
    { keys := tableModify_keys _ _ _
      kerf := Works.kerfLaw_modContour fun _ _ h => h
      slots := Works.slots_grant st hc hn
      rests := fun j _ h d hd hrest => by
        change (v.modContour id _).contour? j = some d at hd
        by_cases hj : j = id
        · subst hj
          rw [Works.contour?_modContour_same, hc] at hd
          cases hd
          simp [Contour.atRest, hs] at hrest
        · rw [Works.contour?_modContour_other _ _ _ _ hj] at hd
          exact h d hd hrest
      station := fun _ => .refl _
      hold := fun _ _ h => h }

theorem Works.KeepsAt.arbiterRounds {n : Nat} (h : w.KeepsAt P E v) : w.KeepsAt P E (Works.arbiterRounds n v) :=
  Works.arbiterRounds_keeps
    (fun _ _ _ hv _ hn he => by
      obtain ⟨c, hc, hs⟩ := Works.isEntering_some he
      exact .upd (.grant hv hc hs hn) rfl) n v h

/-- A contour that gives its slots back to the free ones with its kerf record keeps the laws (R88). -/
theorem Works.KeepsAt.giveBack {id : Nat} {c : Contour} (h : w.KeepsAt P E v) (hc : v.contour? id = some c) :
    w.KeepsAt P E { v.modContour id fun c => { c with kerf := [], prog := { c.prog with reservation := 0 } } with
      pool := { v.pool with free := v.pool.free + c.prog.reservation } } :=
  h.trans
    { keys := tableModify_keys _ _ _
      kerf := Works.kerfLaw_modContour fun _ _ _ => List.Pairwise.nil
      slots := by
        have hs := tableModify_sum (fun c : Contour => c.prog.reservation)
          (fun c => { c with kerf := [], prog := { c.prog with reservation := 0 } }) id v.contours c hc
        dsimp only at hs
        simp only [Works.slots, Works.modContour]
        omega
      rests := fun j _ h d hd hrest => by
        change (v.modContour id _).contour? j = some d at hd
        by_cases hj : j = id
        · subst hj
          rw [Works.contour?_modContour_same, hc] at hd
          cases hd
          rfl
        · rw [Works.contour?_modContour_other _ _ _ _ hj] at hd
          exact h d hd hrest
      station := fun _ => .refl _
      hold := fun _ _ h => h }

/-- A release keeps the laws: what the contour held is free again (R88). -/
theorem Works.KeepsAt.release {id : Nat} (h : w.KeepsAt P E v) : w.KeepsAt P E (v.release id) := by
  simp only [Works.release]
  split
  · exact h
  · rename_i c hc
    split
    · exact h
    · have hm := Works.contour?_congr (Works.markReports_contours v c.cfg.station
        (c.kerf.filterMap (KerfEntry.mark id)) .discarded) id
      exact .arbiterRounds (.giveBack (.markReports h) (hm.trans hc))

/-- After a release the contour holds no slots, unless it is in ENTERING and the arbiter serves it. -/
theorem Works.restsAt_release (w : Works) (id : Nat) : (w.release id).restsAt id := by
  cases hc : w.contour? id with
  | none => simp [Works.release, hc, Works.restsAt]
  | some c =>
    by_cases hr : c.prog.reservation = 0
    · rw [Works.release_of_none hc hr]
      intro d hd _
      rw [hc] at hd
      cases hd
      exact hr
    · simp only [Works.release, hc, hr, if_false]
      refine (Works.KeepsAt.arbiterRounds (P := fun _ => True) (E := fun _ => True) (.refl _)).rests id trivial
        fun d hd _ => ?_
      have hm := Works.contour?_modContour_same
        (w.markReports c.cfg.station (c.kerf.filterMap (KerfEntry.mark id)) .discarded) id fun c =>
          { c with kerf := [], prog := { c.prog with reservation := 0 } }
      obtain ⟨b, -, rfl⟩ := Option.map_eq_some_iff.mp (hm.symm.trans hd)
      rfl

/-- A contour whose work ends, but for the release that follows. -/
theorem Works.KeepsAt.modContour_end {id : Nat} {f : Contour → Contour} (h : w.KeepsAt P E v)
    (hk : ∀ c, (f c).kerf = c.kerf) (hr : ∀ c, (f c).prog.reservation = c.prog.reservation) :
    w.KeepsAt P (fun j => E j ∧ j ≠ id) (v.modContour id f) :=
  KeepsAt.trans { h with rests := fun j hj => h.rests j hj.1 }
    (Works.keepsAt_modContour (fun c _ h => by simpa only [Contour.kerfLaw, hk] using h) (fun c _ => hr c)
      fun _ hE => absurd rfl hE.2)

/-- The release makes good the law of reservations at its contour. -/
theorem Works.KeepsAt.release_end {id : Nat} (h : w.KeepsAt P (fun j => E j ∧ j ≠ id) v) :
    w.KeepsAt P E (v.release id) := by
  have hr := h.release (id := id)
  refine { hr with rests := fun j hE hj => ?_ }
  by_cases hji : j = id
  · subst hji
    exact Works.restsAt_release v j
  · exact hr.rests j ⟨hE, hji⟩ hj

/-- A contour in ENTERING that asks for its slots keeps the laws, whether they are granted or it waits (R65, R86). -/
theorem Works.KeepsAt.requestReservation {st : St} {id need : Nat} {c : Contour} (h : w.KeepsAt P E v)
    (hc : v.contour? id = some c) (hs : c.state = .entering) : w.KeepsAt P E (v.requestReservation st id need) := by
  simp only [Works.requestReservation]
  split
  · rename_i hn
    exact .grant h hc hs hn
  · exact .raise (.report (.upd (h.parts rfl rfl rfl) rfl))

end Sys2Proof.Machine
end

section
/-! PROOFS. The ends of a contour's work, the threading controller, entries, breaks and teardowns keep the laws (chapters 6, 7
and 9). -/

namespace Sys2Proof.Machine

variable {P : St → Prop} {E : Nat → Prop} {w v u : Works}

/-! ## The end of a contour's work (R74, R153, R154) -/

theorem Works.KeepsAt.reportContourEnd {st : St} {id : Nat} (h : w.KeepsAt P E v) :
    w.KeepsAt P E (v.reportContourEnd st id) := by
  unfold Works.reportContourEnd
  split
  · exact h
  · exact .report h

theorem Works.KeepsAt.discardContour {st : St} {id : Nat} (h : w.KeepsAt P E v) :
    w.KeepsAt P E (v.discardContour st id) := by
  unfold Works.discardContour
  extract_lets mine
  split
  · exact h
  · exact .progressUpdate (.upd_queue (q := fun x => x.adm.queue.drop mine.length) (.markReports h) (by simp))

theorem Works.KeepsAt.complete {st : St} {id : Nat} (h : w.KeepsAt P E v) : w.KeepsAt P E (v.complete st id) :=
  .reportContourEnd (.upd (.release_end (h.modContour_end (fun _ => rfl) fun _ => rfl)) rfl)

theorem Works.KeepsAt.tryComplete {st : St} (h : w.KeepsAt P E v) : w.KeepsAt P E (v.tryComplete st) := by
  unfold Works.tryComplete
  split
  · split
    · exact .complete h
    · exact h
  · exact h

theorem Works.KeepsAt.failSkip {st : St} {id : Nat} {cause : Cause} (h : w.KeepsAt P E v) :
    w.KeepsAt P E (v.failSkip st id cause) :=
  .reportContourEnd (.upd (.release_end (.discardContour (.upd (h.modContour_end (fun _ => rfl) fun _ => rfl) rfl))) rfl)

theorem Works.KeepsAt.failHalt {st : St} {id : Nat} {cause : Cause} {code : Option Byte} (h : w.KeepsAt P E v) :
    w.KeepsAt P E (v.failHalt st id cause code) :=
  .addHolds (.modContour h (fun _ => rfl) (fun _ => rfl) fun _ h => h)

theorem Works.KeepsAt.failContour {st : St} {cause : Cause} {code : Option Byte} (h : w.KeepsAt P E v) :
    w.KeepsAt P E (v.failContour st cause code) := by
  unfold Works.failContour
  split
  · exact h
  · extract_lets w1
    split
    · exact .failSkip (.raise h)
    · exact .failHalt (.raise h)

/-! ## The threading controller (chapter 6) -/

theorem Works.KeepsAt.toolEnds {st : St} {s : ThreaderState} (h : w.KeepsAt P E v) : w.KeepsAt P E (v.toolEnds st s) :=
  .modThreader (.upd_pair [] h rfl fun _ => pairOk_nil) fun h => h

/-- A change of the episode record that keeps the offset within its bound. -/
theorem Works.KeepsAt.modEpisode_offset {st : St} {f : Episode → Episode} (h : w.KeepsAt P E v)
    (hf : ∀ e, (v.station st).tc.episode = some e → -(e.offsetBound : Int) ≤ e.offset → e.offset ≤ (e.offsetBound : Int) →
      -((f e).offsetBound : Int) ≤ (f e).offset ∧ (f e).offset ≤ ((f e).offsetBound : Int)) :
    w.KeepsAt P E (v.modEpisode st f) := by
  refine .modThreader h fun ⟨hflags, hep⟩ => ⟨hflags, fun d hd => ?_⟩
  obtain ⟨e, he, rfl⟩ := Option.map_eq_some_iff.mp hd
  obtain ⟨hok, hfail, hlo, hhi⟩ := hep e he
  exact ⟨hok, hfail, hf e he hlo hhi⟩

/-- A change of the episode record that leaves its offset and bound. -/
theorem Works.KeepsAt.modEpisode {st : St} {f : Episode → Episode} (h : w.KeepsAt P E v)
    (hf : ∀ e, (f e).offset = e.offset ∧ (f e).offsetBound = e.offsetBound) : w.KeepsAt P E (v.modEpisode st f) :=
  h.modEpisode_offset fun e _ hlo hhi => by
    rw [(hf e).1, (hf e).2]
    exact ⟨hlo, hhi⟩

theorem Works.KeepsAt.endEpisode {st : St} {out : ThreadOutcome} (h : w.KeepsAt P E v) :
    w.KeepsAt P E (v.endEpisode st out) := by
  unfold Works.endEpisode
  split
  · exact h
  · extract_lets w1 w2
    have h2 : w.KeepsAt P E w2 :=
      .report (.modThreader h fun _ => ⟨by cases out <;> simp, fun e he => nomatch he⟩)
    split
    · exact .raise h2
    · exact .raise h2
    · exact .raise h2
    · exact h2
    · exact h2

theorem Works.KeepsAt.endRecovery {st : St} (h : w.KeepsAt P E v) : w.KeepsAt P E (v.endRecovery st) := by
  unfold Works.endRecovery
  extract_lets w1 w2
  have h2 : w.KeepsAt P E w2 := .upd (.upd h rfl) rfl
  split
  · exact h2
  · exact .upd h2 rfl

theorem Works.KeepsAt.modRecovery {st : St} {f : Recovery → Recovery} (h : w.KeepsAt P E v) :
    w.KeepsAt P E (v.modRecovery st f) := .upd h rfl

theorem Works.KeepsAt.modPass {st : St} {f : PassWork → PassWork} (h : w.KeepsAt P E v) :
    w.KeepsAt P E (v.modPass st f) := .upd h rfl

/-- A contour goes to a working state, or to QUEUED. -/
theorem Works.KeepsAt.setState {id : Nat} {s : ContourState} (h : w.KeepsAt P E v)
    (hs : s ≠ .defined ∧ s ≠ .complete ∧ s ≠ .failed ∧ s ≠ .aborted) :
    w.KeepsAt P E (v.modContour id fun c => c.setState s) :=
  h.modContour (fun _ => rfl) (fun _ => rfl) fun c hc => by
    simp [Contour.atRest, Contour.setState, hs] at hc

theorem Works.KeepsAt.afterSuccess {st : St} {kind : EpisodeKind} (h : w.KeepsAt P E v) :
    w.KeepsAt P E (v.afterSuccess st kind) := by
  unfold Works.afterSuccess
  extract_lets place w1
  have h1 : w.KeepsAt P E w1 := .upd h rfl
  clear_value w1
  split
  · exact h1
  · split
    · split
      · exact .endRecovery h1
      · split
        · exact .endRecovery h1
        · exact .modRecovery h1
    · split
      · exact .modPass h1
      · exact .upd (.setState h1 (by decide)) rfl

theorem Works.KeepsAt.episodeSucceeds {st : St} (h : w.KeepsAt P E v) : w.KeepsAt P E (v.episodeSucceeds st) := by
  unfold Works.episodeSucceeds
  split
  · exact h
  · exact .afterSuccess (.modContour (.endEpisode h) (fun _ => rfl) (fun _ => rfl) fun _ h => h)

theorem Works.KeepsAt.episodeFails {st : St} {out : ThreadOutcome} (h : w.KeepsAt P E v) :
    w.KeepsAt P E (v.episodeFails st out) := by
  unfold Works.episodeFails
  split
  · exact h
  · extract_lets w1
    split
    · exact .modRecovery (.endEpisode h)
    · exact .failContour (.endEpisode h)

theorem Works.KeepsAt.attemptDue {st : St} (h : w.KeepsAt P E v) : w.KeepsAt P E (v.attemptDue st) := by
  unfold Works.attemptDue
  split
  · exact h
  · split
    · exact .episodeFails h
    · exact .modEpisode h fun _ => ⟨rfl, rfl⟩

theorem Works.KeepsAt.startEpisode {st : St} {kind : EpisodeKind} {id : Nat} {c : Contour} (h : w.KeepsAt P E v) :
    w.KeepsAt P E (v.startEpisode st kind id c) := by
  refine .attemptDue (.modThreader h fun _ => ⟨fun hf => Bool.noConfusion hf.1, fun e he => ?_⟩)
  cases he
  exact ⟨rfl, rfl, by simp, by simp⟩

/-- An operation joins an empty pair (R57). -/
theorem Works.KeepsAt.push_empty {st : St} {b : OpBody} (h : w.KeepsAt P E v) (hp : (v.station st).pair = []) :
    w.KeepsAt P E (v.upd st fun x => x.push b) :=
  h.upd_pair [{ issue := (v.station st).nextIssue, body := b }] (by simp [Station.lawView, hp])
    fun _ => ⟨by simp, fun _ _ _ => rfl⟩

theorem Works.station_toolEnds_pair (w : Works) (st : St) (s : ThreaderState) :
    ((w.toolEnds st s).station st).pair = [] := by
  simp [Works.toolEnds, Works.modThreader]

theorem Works.KeepsAt.probe {st : St} {result : Byte} (h : w.KeepsAt P E v) : w.KeepsAt P E (v.probe st result) := by
  unfold Works.probe
  extract_lets x w1
  have h1 : w.KeepsAt P E w1 := .modEpisode h fun _ => ⟨rfl, rfl⟩
  split
  · split
    · split
      · exact .modEpisode h fun _ => ⟨rfl, rfl⟩
      · exact .modEpisode h fun _ => ⟨rfl, rfl⟩
      · split
        · exact .push_empty (.toolEnds h1) (Works.station_toolEnds_pair _ _ _)
        · exact h1
    · exact h
  · exact h

theorem Works.KeepsAt.probeEnd {st : St} (h : w.KeepsAt P E v) : w.KeepsAt P E (v.probeEnd st) := by
  unfold Works.probeEnd
  extract_lets x
  split
  · exact h
  · split
    · refine .push_empty (.modThreader (.toolEnds (.modEpisode h fun e => ?_)) fun h => h) ?_
      · split <;> exact ⟨rfl, rfl⟩
      · simp [Works.modThreader, Works.station_toolEnds_pair]
    · exact h

theorem Works.KeepsAt.takeLockout {st : St} (h : w.KeepsAt P E v) : w.KeepsAt P E (v.takeLockout st) :=
  .toolEnds (.modEpisode h fun _ => ⟨rfl, rfl⟩)

theorem Works.KeepsAt.threaded {st : St} (h : w.KeepsAt P E v) : w.KeepsAt P E (v.threaded st) := by
  unfold Works.threaded
  extract_lets x
  split
  · exact h
  · split
    · split
      · exact .upd (.endEpisode (.toolEnds (.modEpisode h fun _ => ⟨rfl, rfl⟩))) rfl
      · split
        · exact .takeLockout h
        · exact .episodeSucceeds (.toolEnds (.modEpisode h fun _ => ⟨rfl, rfl⟩))
    · exact h

/-- The offset moves by a miss only within its bound (R100, the eleventh law). -/
theorem Works.KeepsAt.afterMiss {st : St} {e : Episode} (h : w.KeepsAt P E v)
    (he : ∀ d, (v.station st).tc.episode = some d → d.offsetBound = e.offsetBound) :
    w.KeepsAt P E (v.afterMiss st e) := by
  unfold Works.afterMiss
  extract_lets next
  clear_value next
  split
  · exact .episodeFails h
  · rename_i hin
    refine .attemptDue (.modEpisode_offset h fun d hd _ _ => ?_)
    dsimp only
    rw [he d hd]
    omega

theorem Works.KeepsAt.abandoned {st : St} (h : w.KeepsAt P E v) : w.KeepsAt P E (v.abandoned st) := by
  unfold Works.abandoned
  extract_lets x w1 w2
  have h1 : w.KeepsAt P E w1 := .toolEnds h
  have h2 : w.KeepsAt P E w2 := .modEpisode h1 fun _ => ⟨rfl, rfl⟩
  split
  · exact h
  · rename_i e he
    split
    · split
      · exact .upd (.endEpisode h1) rfl
      · split
        · refine .afterMiss h2 fun d hd => ?_
          have hx : (v.station st).tc.episode = some e := he
          simp only [w2, w1, Works.modEpisode, Works.toolEnds, Works.modThreader, Works.station_upd_same, hx] at hd
          cases hd
          rfl
        · exact .attemptDue h2
        · split
          · exact .attemptDue h2
          · exact .episodeFails h2
        · exact .attemptDue (.modEpisode h2 fun _ => ⟨rfl, rfl⟩)
        · exact h2
    · exact h

theorem Works.KeepsAt.threadEnds {st : St} (h : w.KeepsAt P E v) : w.KeepsAt P E (v.threadEnds st) := by
  unfold Works.threadEnds
  extract_lets w1
  have h1 : w.KeepsAt P E w1 := .modThreader h fun h => h
  split
  · exact .upd (.endEpisode h1) rfl
  · exact .modEpisode h1 fun _ => ⟨rfl, rfl⟩

theorem Works.KeepsAt.confirmFaults {st : St} (h : w.KeepsAt P E v) : w.KeepsAt P E (v.confirmFaults st) := by
  unfold Works.confirmFaults
  extract_lets x
  split
  · exact h
  · split
    · split
      · exact .threadEnds (.takeLockout h)
      · exact .takeLockout h
    · exact .threadEnds h

theorem Works.KeepsAt.abandonFaults {st : St} (h : w.KeepsAt P E v) : w.KeepsAt P E (v.abandonFaults st) := by
  unfold Works.abandonFaults
  split
  · exact .threadEnds h
  · exact .upd (.modThreader h fun h => h) rfl

theorem Works.KeepsAt.breakInEpisode {st : St} (h : w.KeepsAt P E v) : w.KeepsAt P E (v.breakInEpisode st) := by
  unfold Works.breakInEpisode
  extract_lets x
  split
  · exact h
  · split
    · split
      · exact h
      · exact .modEpisode h fun _ => ⟨rfl, rfl⟩
    · exact .modEpisode h fun _ => ⟨rfl, rfl⟩
    · exact h
    · exact h

/-! ## Entries, closings and breaks (R60, R68, R72, R116) -/

theorem Works.KeepsAt.beginClosing {st : St} {id : Nat} (h : w.KeepsAt P E v) : w.KeepsAt P E (v.beginClosing st id) := by
  unfold Works.beginClosing
  split
  · exact h
  · extract_lets need w1 w2
    have h1 : w.KeepsAt P E w1 := h.modContour (fun _ => rfl) (fun _ => rfl) fun c hc => by simp [Contour.atRest] at hc
    have h2 : w.KeepsAt P E w2 := .upd h1 rfl
    split
    · exact .modPass h2
    · exact .upd h2 rfl

theorem Works.KeepsAt.entryCut {st : St} {id k : Nat} (h : w.KeepsAt P E v) : w.KeepsAt P E (v.entryCut st id k) := by
  unfold Works.entryCut
  split
  · exact h
  · extract_lets w1 w2
    have h1 : w.KeepsAt P E w1 := h.trans (Works.keepsAt_modContour
      (fun c _ hc => Contour.kerfLaw_modEntry hc k fun _ => rfl) (fun _ _ => rfl) fun _ _ _ h => h)
    have h2 : w.KeepsAt P E w2 := .markReport? h1
    split
    · exact .beginClosing h2
    · exact h2

theorem Works.KeepsAt.tailCut {st : St} {id k : Nat} (h : w.KeepsAt P E v) : w.KeepsAt P E (v.tailCut st id k) := by
  unfold Works.tailCut
  split
  · exact h
  · rename_i c hc
    extract_lets c1 w1 w2
    have h1 : w.KeepsAt P E w1 := by
      refine h.trans (Works.keepsAt_modContour (fun d hd hl => ?_) (fun d hd => ?_) fun d _ hd => ?_)
      all_goals
        obtain rfl := Option.some.inj (hc.symm.trans hd)
      · exact Contour.kerfLaw_modEntry hl k fun _ => rfl
      · rfl
      · exact fun h => h
    have h2 : w.KeepsAt P E w2 := .markReport? h1
    split
    · exact .beginClosing h2
    · exact h2

theorem Works.KeepsAt.entryReturns {st : St} {id k p : Nat} {tail : Bool} (h : w.KeepsAt P E v) :
    w.KeepsAt P E (v.entryReturns st id k p tail) := by
  unfold Works.entryReturns
  split
  · exact h
  · extract_lets w1
    have h1 : w.KeepsAt P E w1 := h.modEntry fun _ => rfl
    split
    · split
      · exact .tailCut h1
      · exact .entryCut h1
    · exact h1.modEntry fun _ => rfl

theorem Works.KeepsAt.opReturns {st : St} {body : OpBody} {p : Nat} (h : w.KeepsAt P E v) :
    w.KeepsAt P E (v.opReturns st body p) := .upd h (by split <;> rfl)

theorem Works.KeepsAt.wireCutFaults {st : St} {purpose : CutPurpose} (h : w.KeepsAt P E v) :
    w.KeepsAt P E (v.wireCutFaults st purpose) := by
  unfold Works.wireCutFaults
  split
  · split
    · exact .upd h rfl
    · exact h
  · exact .opReturns h

theorem Works.KeepsAt.opEnds {st : St} {body : OpBody} {p : Nat} (h : w.KeepsAt P E v) :
    w.KeepsAt P E (v.opEnds st body p) := by
  unfold Works.opEnds
  split
  · exact .entryReturns h
  · exact .entryReturns h
  · exact .opReturns h
  · exact .opReturns h
  · exact .opReturns h
  · exact .opReturns h
  · exact .opReturns h
  · exact .opReturns h
  · exact .threadEnds h
  · exact .confirmFaults h
  · exact .abandonFaults h
  · exact .wireCutFaults h

theorem Works.KeepsAt.settleBreak {st : St} {position : Option (Nat × Nat)} {code : Option Byte} (h : w.KeepsAt P E v) :
    w.KeepsAt P E (v.settleBreak st position code) := by
  unfold Works.settleBreak
  extract_lets place w1
  have h1 : w.KeepsAt P E w1 := .upd h rfl
  split
  · exact h1
  · extract_lets pass boundary count exceeded w2 w3 w4
    have h4 : w.KeepsAt P E w4 :=
      .upd (.raise (.report (.modContour h1 (fun _ => rfl) (fun _ => rfl) fun _ h => h))) rfl
    split
    · exact .failContour h4
    · exact h4

/-! ## Teardowns and drive loss (R63, R157 to R160) -/

theorem Works.KeepsAt.abortIdleEpisode {st : St} (h : w.KeepsAt P E v) : w.KeepsAt P E (v.abortIdleEpisode st) := by
  unfold Works.abortIdleEpisode
  split
  · exact h
  · split
    · extract_lets w1
      split
      · exact .upd (.endEpisode h) rfl
      · exact .endEpisode h
    · exact h

/-- A station that is ABORTING holds no reasons. -/
theorem Works.KeepsAt.startTeardown {st : St} {cause : TeardownCause} (h : w.KeepsAt P E v) :
    w.KeepsAt P E (v.startTeardown st cause) := by
  refine .callStop (.abortIdleEpisode (KeepsAt.parts (v := v.upd st fun x =>
    { x with
      state := .aborting, holds := Holds.none, catchWait := none, returned := [], failureCutDue := false
      teardown := some cause }) (h.upd_station ?_ ?_) rfl rfl rfl))
  · exact ⟨fun h => h, fun h => h, fun _ hne => absurd rfl hne⟩
  · exact fun _ => ⟨fun hs => (nomatch hs), fun hne => absurd rfl hne⟩

theorem Works.KeepsAt.driveLoss {st : St} (h : w.KeepsAt P E v) : w.KeepsAt P E (v.driveLoss st) := by
  unfold Works.driveLoss
  extract_lets w1 w2 w3
  have h1 : w.KeepsAt P E w1 := .upd_pair [] h rfl fun _ => pairOk_nil
  have h2 : w.KeepsAt P E w2 := by
    unfold w2
    split
    · exact .settleBreak h1
    · exact h1
  have h3 : w.KeepsAt P E w3 := .upd h2 rfl
  split
  · exact .startTeardown h3
  · exact .startTeardown h3
  · exact .abortIdleEpisode h3
  · exact h3

theorem Works.KeepsAt.abortContour {st : St} {acc : Works × Nat × Nat} {id : Nat} (h : w.KeepsAt P E acc.1) :
    w.KeepsAt P E (Works.abortContour st acc id).1 := by
  unfold Works.abortContour
  split
  · exact h
  · split
    · exact .release_end (h.modContour_end (fun _ => rfl) fun _ => rfl)
    · exact h

theorem Works.KeepsAt.abortContours {st : St} {ids : List Nat} {acc : Works × Nat × Nat} (h : w.KeepsAt P E acc.1) :
    w.KeepsAt P E (ids.foldl (Works.abortContour st) acc).1 := by
  induction ids generalizing acc with
  | nil => exact h
  | cons id ids ih => exact ih (.abortContour h)

theorem Works.KeepsAt.discardQueue {st : St} (h : w.KeepsAt P E v) : w.KeepsAt P E (v.discardQueue st) := by
  unfold Works.discardQueue
  extract_lets x w1
  have h1 : w.KeepsAt P E w1 := .upd (.markReports h) rfl
  split
  · exact h1
  · exact .progressUpdate (.upd_queue (q := fun _ => []) (.markReports h1) (Nat.zero_le _))

/-- A station that holds no reasons may become IDLE. -/
theorem Works.KeepsAt.toIdle {st : St} (h : w.KeepsAt P E v) (hs : (v.station st).state ≠ .held) :
    w.KeepsAt P E (v.upd st Station.toIdle) := by
  have hnone : (v.station st).holdsWhenHeld → (v.station st).holds = Holds.none :=
    fun hw => Classical.byContradiction fun hne => hs (hw hne)
  exact h.upd_station ⟨fun h => h, fun h => h, fun hw hne => absurd (hnone hw) hne⟩ fun hl =>
    ⟨fun h => (nomatch h), fun hne => absurd (hnone hl.whenHeld) hne⟩

end Sys2Proof.Machine
end

section
/-! PROOFS. Every action of a sequencer, and an event's settling, keep the laws (chapters 4, 5, 7 and 8). -/

namespace Sys2Proof.Machine

variable {P : St → Prop} {E : Nat → Prop} {w v u : Works}

/-- Step 1 of a teardown changes its station in its admission, directives' marks, report queue and lost count only. -/
theorem Works.discardQueue_station (w : Works) (st : St) :
    ∃ adm rs lost, (w.discardQueue st).station st
      = { w.station st with adm := adm, directiveMarks := [], reports := rs, lost := lost } := by
  unfold Works.discardQueue
  extract_lets x w1 w2
  have h1 : ∃ adm rs lost, w1.station st
      = { w.station st with adm := adm, directiveMarks := [], reports := rs, lost := lost } := by
    obtain ⟨hs, rs, lost, h⟩ := Works.markReports_station w st x.directiveMarks .discarded
    exact ⟨{ (w.station st).adm with handles := hs }, rs, lost, by simp only [w1, Works.station_upd_same, h]⟩
  split
  · exact h1
  · rename_i e _
    obtain ⟨adm, rs, lost, h⟩ := h1
    obtain ⟨hs, rs2, lost2, h2⟩ := Works.markReports_station w1 st (x.adm.queue.filterMap QEntry.mark) .discarded
    obtain ⟨rs3, lost3, h3⟩ := Works.progressUpdate_station
      (w2.upd st fun x => { x with adm := { x.adm with queue := [] }.setConsumed e.seq }) st
    exact ⟨({ adm with queue := [], handles := hs } : Admission).setConsumed e.seq, rs3, lost3, by
      rw [h3, Works.station_upd_same, h2, h]⟩

/-- The contours that a teardown aborts leave any station but for its handles, activity, report queue and lost count. -/
theorem Works.abortContours_station (st j : St) (ids : List Nat) (acc : Works × Nat × Nat) :
    ∃ hs a rs lost, (ids.foldl (Works.abortContour st) acc).1.station j
      = { acc.1.station j with
          adm := { (acc.1.station j).adm with handles := hs }, activity := a, reports := rs, lost := lost } := by
  induction ids generalizing acc with
  | nil => exact ⟨(acc.1.station j).adm.handles, (acc.1.station j).activity, _, _, rfl⟩
  | cons id ids ih =>
    obtain ⟨hs, a, rs, lost, h⟩ := ih (Works.abortContour st acc id)
    rw [List.foldl_cons, h]
    unfold Works.abortContour
    split
    · exact ⟨hs, a, rs, lost, rfl⟩
    · rename_i c _
      split
      · obtain ⟨hs', a', rs', lost', h'⟩ := Works.release_station (acc.1.modContour id fun c =>
          { c with state := .aborted, prog := { c.prog with pendingFailure := none, outcome := some .aborted } }) id j
        exact ⟨hs, a, rs, lost, by rw [h', Works.modContour_station]⟩
      · exact ⟨hs, a, rs, lost, rfl⟩

theorem Works.KeepsAt.clearProgram {st : St} (h : w.KeepsAt P E v) (hs : (v.station st).state ≠ .held) :
    w.KeepsAt P E (v.clearProgram st) := by
  unfold Works.clearProgram
  extract_lets x w1 r tag w2
  have h1 : w.KeepsAt P E w1 := .upd (.discardQueue h) rfl
  have hr : w.KeepsAt P E r.1 := .abortContours h1
  refine .toIdle (.report hr) ?_
  obtain ⟨adm, rs, lost, hd⟩ := Works.discardQueue_station v st
  obtain ⟨hs', a, rs', lost', ha⟩ := Works.abortContours_station st st (v.teardownOrder st) (w1, 0, 0)
  obtain ⟨rs2, lost2, h2⟩ := Works.report_station r.1 st (.teardown tag (x.adm.queue.head?.map QEntry.seq)
    x.adm.queue.length r.2.1 r.2.2 (x.teardown.getD .request) x.wire)
  have hw1 : (w1.station st).state = (v.station st).state := by simp only [w1, Works.station_upd_same, hd]
  rw [h2, show r.1.station st = _ from ha]
  dsimp only
  rwa [hw1]

/-! ## Issues (R57, R63) -/

/-- An operation that finds room joins the pair. -/
theorem Works.KeepsAt.push {st : St} {b : OpBody} (h : w.KeepsAt P E v) (hroom : (v.station st).room b = true) :
    w.KeepsAt P E (v.upd st fun x => x.push b) :=
  h.upd_pair _ rfl fun hp => pairOk_push hp hroom

/-- An operation that finds room is issued, or the port is DOWN and the drive is lost. -/
theorem Works.KeepsAt.issue {st : St} {b : OpBody} {pre : Works → Works} (h : w.KeepsAt P E v)
    (hroom : (v.station st).room b = true) (hpre : w.KeepsAt P E (pre v))
    (hpair : ((pre v).station st).pair = (v.station st).pair) : w.KeepsAt P E (v.issue st b pre) := by
  unfold Works.issue
  split
  · refine .push hpre ?_
    simpa only [Station.room, Station.moveRoom, hpair] using hroom
  · exact .driveLoss h

/-- An empty pair has room for any operation (R57). -/
theorem Station.room_of_empty {x : Station} (h : x.pair = []) (b : OpBody) : x.room b = true := by
  simp [Station.room, Station.moveRoom, h]

/-- Room for a MOVE is room for any MOVE (R57). -/
theorem Station.room_of_moveRoom {x : Station} (h : x.moveRoom = true) {m : MoveMode} {d : Direction} {o : Nat}
    {s : Segment} {k : MoveWork} : x.room (.move m d o s k) = true := by
  simpa [Station.room, OpBody.isTool] using h

theorem Works.consumeHead_pair (w : Works) (st : St) : ((w.consumeHead st).station st).pair = (w.station st).pair := by
  cases hq : (w.station st).adm.queue with
  | nil => simp only [Works.consumeHead, hq]
  | cons e rest =>
    obtain ⟨rs, lost, h⟩ := Works.consumeHead_station hq
    rw [h]

theorem Works.endRecovery_pair (w : Works) (st : St) : ((w.endRecovery st).station st).pair = (w.station st).pair := by
  unfold Works.endRecovery
  extract_lets w1 w2
  split <;> simp [w2, w1]

/-! ## The actions of a sequencer -/

theorem Works.KeepsAt.intakeAct {st : St} {v' : Works} (h : w.KeepsAt P E v) (hv : v.intakeAct st = some v') :
    w.KeepsAt P E v' := by
  unfold Works.intakeAct at hv
  split at hv
  · split at hv
    · rename_i id c e rest _ _ _
      obtain rfl := Option.some.inj hv
      have h1 : w.KeepsAt P E ((v.modContour id fun c => c.record (e.toKerf .tail none)).consumeHead st) :=
        .consumeHead h.record
      split
      · exact .upd (.setState h1 (by decide)) rfl
      · exact h1
    · cases hv
  · cases hv

theorem Works.KeepsAt.threadAct {st : St} {e : Episode} {v' : Works} (h : w.KeepsAt P E v)
    (hv : v.threadAct st e = some v') : w.KeepsAt P E v' := by
  unfold Works.threadAct at hv
  extract_lets x at hv
  split at hv
  · rename_i hc
    have hroom := Station.room_of_empty hc.2
    split at hv
    · obtain rfl := Option.some.inj hv
      exact .issue h (hroom _) (.modThreader h fun h => h) (by simp [Works.modThreader])
    · obtain rfl := Option.some.inj hv
      exact .issue h (hroom _) (.modThreader h fun h => h) (by simp [Works.modThreader])
  · cases hv

theorem Works.KeepsAt.traverseAct {st : St} {id n : Nat} {c : Contour} {v' : Works} (h : w.KeepsAt P E v)
    (hv : v.traverseAct st id c n = some v') : w.KeepsAt P E v' := by
  unfold Works.traverseAct at hv
  extract_lets x list at hv
  split at hv
  · rename_i hc
    split at hv
    · obtain rfl := Option.some.inj hv
      exact .endRecovery h
    · obtain rfl := Option.some.inj hv
      refine .issue h (Station.room_of_moveRoom hc.2) ?_ ?_
      · split
        · exact .modRecovery h
        · exact .endRecovery h
      · split
        · simp [Works.modRecovery]
        · exact Works.endRecovery_pair _ _
  · cases hv

theorem Works.KeepsAt.recoveryAct {st : St} {id : Nat} {c : Contour} {r : Recovery} {v' : Works} (h : w.KeepsAt P E v)
    (hv : v.recoveryAct st id c r = some v') : w.KeepsAt P E v' := by
  unfold Works.recoveryAct at hv
  extract_lets x at hv
  split at hv
  · split at hv
    · rename_i hp
      split at hv
      · obtain rfl := Option.some.inj hv
        exact .issue h (Station.room_of_empty hp _) (.upd (.modRecovery h) rfl) (by simp [Works.modRecovery])
      · obtain rfl := Option.some.inj hv
        exact .upd h rfl
    · cases hv
  · cases hv
  · split at hv
    · rename_i hp
      obtain rfl := Option.some.inj hv
      exact .issue h (Station.room_of_empty hp _) h rfl
    · cases hv
  iterate 2
    · split at hv
      · exact .threadAct h hv
      · split at hv
        · obtain rfl := Option.some.inj hv
          exact .startEpisode h
        · cases hv
  · exact .traverseAct h hv

theorem Works.KeepsAt.dueRequest {st : St} {id : Nat} {c d : Contour} (h : w.KeepsAt P E v)
    (hc : v.contour? id = some d) (hs : d.state = .entering) : w.KeepsAt P E (v.dueRequest st id c) :=
  .requestReservation (.upd h rfl) hc hs

theorem Works.KeepsAt.entrySteps {st : St} {id : Nat} {c : Contour} {v' : Works} (h : w.KeepsAt P E v)
    (hp : (v.station st).pair = []) (hv : v.entrySteps st id c = some v') : w.KeepsAt P E v' := by
  unfold Works.entrySteps at hv
  extract_lets x at hv
  split at hv
  · split at hv
    · obtain rfl := Option.some.inj hv
      exact .issue h (Station.room_of_empty hp _) h rfl
    · split at hv
      · obtain rfl := Option.some.inj hv
        exact .issue h (Station.room_of_empty hp _) h rfl
      · cases hv
  · obtain rfl := Option.some.inj hv
    exact .startEpisode h
  all_goals cases hv

theorem Works.KeepsAt.entryAct {st : St} {id : Nat} {c : Contour} {v' : Works} (h : w.KeepsAt P E v)
    (hc : v.contour? id = some c) (hs : c.state = .entering) (hv : v.entryAct st id c = some v') :
    w.KeepsAt P E v' := by
  unfold Works.entryAct at hv
  extract_lets x at hv
  split at hv
  · rename_i hp
    split at hv
    · cases hv
    · obtain rfl := Option.some.inj hv
      exact .dueRequest h hc hs
    · exact .entrySteps h hp hv
  · cases hv

theorem Works.KeepsAt.mainAct {st : St} {id : Nat} {c : Contour} {v' : Works} (h : w.KeepsAt P E v)
    (hv : v.mainAct st id c = some v') : w.KeepsAt P E v' := by
  unfold Works.mainAct at hv
  extract_lets x at hv
  split at hv
  · split at hv
    · split at hv
      · rename_i hc
        obtain rfl := Option.some.inj hv
        exact .issue h (Station.room_of_moveRoom hc.2) (.modEntry h fun _ => rfl) rfl
      · cases hv
    · split at hv
      · split at hv
        · rename_i hp
          obtain rfl := Option.some.inj hv
          exact .issue h (Station.room_of_empty hp _) (h.modContour (fun _ => rfl) (fun _ => rfl) fun _ h => h) rfl
        · cases hv
      · split at hv
        · cases hv
        · split at hv
          · rename_i hc
            obtain rfl := Option.some.inj hv
            obtain ⟨-, -, -, hroom⟩ := hc
            exact .issue h (Station.room_of_moveRoom hroom) (.consumeHead h.record) (Works.consumeHead_pair _ _)
          · cases hv
  · cases hv

theorem Works.KeepsAt.approachAct {st : St} {id : Nat} {c : Contour} {p : PassWork} {v' : Works} (h : w.KeepsAt P E v)
    (hv : v.approachAct st id c p = some v') : w.KeepsAt P E v' := by
  unfold Works.approachAct at hv
  extract_lets x at hv
  split at hv
  · rename_i hc
    have hroom := fun m d o s k => Station.room_of_moveRoom hc.2 (m := m) (d := d) (o := o) (s := s) (k := k)
    split at hv
    · obtain rfl := Option.some.inj hv
      exact .issue h (hroom _ _ _ _ _) (.modPass h) (by simp [Works.modPass])
    · split at hv
      · cases hv
      · obtain rfl := Option.some.inj hv
        exact .issue h (hroom _ _ _ _ _) (.modPass (.modEntry h fun _ => rfl)) (by simp [Works.modPass])
  · cases hv

theorem Works.KeepsAt.passAct {st : St} {id : Nat} {c : Contour} {p : PassWork} {v' : Works} (h : w.KeepsAt P E v)
    (hv : v.passAct st id c p = some v') : w.KeepsAt P E v' := by
  unfold Works.passAct at hv
  extract_lets x at hv
  split at hv
  · split at hv
    · rename_i hp
      split at hv
      · obtain rfl := Option.some.inj hv
        exact .issue h (Station.room_of_empty hp _) h rfl
      · obtain rfl := Option.some.inj hv
        exact .issue h (Station.room_of_empty hp _) h rfl
    · cases hv
  · split at hv
    · obtain rfl := Option.some.inj hv
      exact .startEpisode h
    · cases hv
  · exact .approachAct h hv
  · cases hv

theorem Works.KeepsAt.closingAct {st : St} {v' : Works} (h : w.KeepsAt P E v) (hv : v.closingAct st = some v') :
    w.KeepsAt P E v' := by
  unfold Works.closingAct at hv
  extract_lets x at hv
  split at hv
  · split at hv
    · rename_i hc
      obtain rfl := Option.some.inj hv
      exact .issue h (Station.room_of_empty hc.2 _) h rfl
    · cases hv
  · cases hv

/-- The current contour's record is the one the table holds. -/
theorem Works.contour?_of_current? {w : Works} {st : St} {id : Nat} {c : Contour} (h : w.current? st = some (id, c)) :
    w.contour? id = some c := by
  unfold Works.current? at h
  split at h
  · cases h
  · obtain ⟨d, hd, hp⟩ := Option.map_eq_some_iff.mp h
    cases hp
    exact hd

theorem Works.KeepsAt.contourAct {st : St} {id : Nat} {c : Contour} {v' : Works} (h : w.KeepsAt P E v)
    (hc : v.contour? id = some c) (hv : v.contourAct st id c = some v') : w.KeepsAt P E v' := by
  unfold Works.contourAct at hv
  extract_lets x at hv
  split at hv
  · cases hv
  · split at hv
    · exact .recoveryAct h hv
    · split at hv
      · exact .threadAct h hv
      · split at hv
        · rename_i hs
          exact .entryAct h hc hs hv
        · exact .mainAct h hv
        · obtain ⟨p, -, hp⟩ := Option.bind_eq_some_iff.mp hv
          exact .passAct h hp
        · exact .closingAct h hv
        all_goals cases hv

theorem Works.contour?_makeCurrent (w : Works) (st : St) (id : Nat) :
    (w.makeCurrent st id).contour? id = (w.contour? id).map fun c => c.setState .entering := by
  unfold Works.makeCurrent
  rw [Works.contour?_upd, Works.contour?_modContour_same]

theorem Works.KeepsAt.makeCurrent {st : St} {id : Nat} (h : w.KeepsAt P E v) : w.KeepsAt P E (v.makeCurrent st id) :=
  .upd (.setState h (by decide)) rfl

theorem Works.KeepsAt.enterContour {st : St} {id : Nat} {c d : Contour} (h : w.KeepsAt P E v)
    (hc : v.contour? id = some d) : w.KeepsAt P E (v.enterContour st id c) :=
  .requestReservation (c := d.setState .entering) (.makeCurrent h) (by rw [Works.contour?_makeCurrent, hc]; rfl) rfl

theorem Works.KeepsAt.startPass {st : St} {t : PassTrigger} (h : w.KeepsAt P E v) : w.KeepsAt P E (v.startPass st t) :=
  .upd h rfl

theorem Works.KeepsAt.beginEntry {st : St} {id : Nat} {v' : Works} (h : w.KeepsAt P E v)
    (hv : v.beginEntry st id = some v') : w.KeepsAt P E v' := by
  obtain ⟨c, hc, rfl⟩ := Option.map_eq_some_iff.mp hv
  split
  · exact .startPass h
  · unfold Works.checkPassed
    extract_lets w1
    have h1 : w.KeepsAt P E w1 := h.parts rfl rfl rfl
    split
    · exact .enterContour h1 hc
    · exact .upd (.makeCurrent h1) rfl

theorem Works.KeepsAt.startPassContour {st : St} {id : Nat} {rest : List Nat} (h : w.KeepsAt P E v) :
    w.KeepsAt P E (v.startPassContour st id rest) := by
  unfold Works.startPassContour
  extract_lets w1
  have h1 : w.KeepsAt P E w1 := .upd h rfl
  split
  · exact h1
  · split
    · exact .upd (.setState h1 (by decide)) rfl
    all_goals exact h1

theorem Works.KeepsAt.endPass {st : St} {t : PassTrigger} (h : w.KeepsAt P E v) : w.KeepsAt P E (v.endPass st t) := by
  unfold Works.endPass
  extract_lets w1
  have h1 : w.KeepsAt P E w1 := .upd h rfl
  split
  · exact h1
  · exact h1
  · split
    · split
      · rename_i hc
        exact .enterContour h1 hc
      · exact h1
    · exact h1

theorem Works.KeepsAt.finishProgram {st : St} {seq : Seq} (h : w.KeepsAt P E v) (hs : (v.station st).state ≠ .held) :
    w.KeepsAt P E (v.finishProgram st seq) := by
  unfold Works.finishProgram
  extract_lets x w1 tag
  refine .toIdle (.report (.upd (.markReports h) rfl)) ?_
  obtain ⟨rs, lost, hr⟩ := Works.report_station w1 st (.programEnd tag seq x.completed x.failed)
  obtain ⟨hs', rs', lost', hm⟩ := Works.markReports_station v st x.directiveMarks .done
  rw [hr]
  simp only [w1, Works.station_upd_same, hm]
  exact hs

theorem Works.KeepsAt.takeDirective {st : St} {e : QEntry} {a : Activity} (h : w.KeepsAt P E v) :
    w.KeepsAt P E (v.takeDirective st e a) := .upd (.consumeHead h) rfl

theorem Works.takeDirective_pair (w : Works) (st : St) (e : QEntry) (a : Activity) :
    ((w.takeDirective st e a).station st).pair = (w.station st).pair := by
  simp [Works.takeDirective, Works.consumeHead_pair]

theorem Works.KeepsAt.travelAct {st : St} {e : QEntry} {v' : Works} (h : w.KeepsAt P E v)
    (hv : v.travelAct st e = some v') : w.KeepsAt P E v' := by
  unfold Works.travelAct at hv
  extract_lets x at hv
  split at hv
  · split at hv
    · rename_i hroom
      obtain rfl := Option.some.inj hv
      exact .issue h (Station.room_of_moveRoom hroom) (.takeDirective h) (Works.takeDirective_pair _ _ _ _)
    · cases hv
  iterate 2
    · split at hv
      · rename_i hp
        obtain rfl := Option.some.inj hv
        exact .issue h (Station.room_of_empty hp _) (.upd h rfl) (by simp)
      · cases hv
  · cases hv

theorem Works.KeepsAt.headStarts {st : St} {e : QEntry} {v' : Works} (h : w.KeepsAt P E v)
    (hv : v.headStarts st e = some v') : w.KeepsAt P E v' := by
  unfold Works.headStarts at hv
  split at hv
  iterate 3
    · split at hv
      · exact .beginEntry h hv
      · cases hv
  · obtain rfl := Option.some.inj hv
    unfold Works.tabsAct
    extract_lets w1
    have h1 : w.KeepsAt P E w1 := .markReport? (.consumeHead h)
    split
    · exact .upd h1 rfl
    · exact .startPass h1
  · obtain rfl := Option.some.inj hv
    unfold Works.endProgramAct
    extract_lets w1
    have h1 : w.KeepsAt P E w1 := .upd (.takeDirective h) rfl
    split
    · exact h1
    · exact .startPass h1
  all_goals cases hv

theorem Works.KeepsAt.headAct {st : St} {e : QEntry} {v' : Works} (h : w.KeepsAt P E v)
    (hv : v.headAct st e = some v') : w.KeepsAt P E v' := by
  unfold Works.headAct at hv
  extract_lets x at hv
  split at hv
  · exact .travelAct h hv
  · split at hv
    · rename_i hp
      obtain rfl := Option.some.inj hv
      exact .issue h (Station.room_of_empty hp _) (.takeDirective h) (Works.takeDirective_pair _ _ _ _)
    · cases hv
  all_goals
    split at hv
    · exact .headStarts h hv
    · cases hv

theorem Works.KeepsAt.idleAct {st : St} {v' : Works} (h : w.KeepsAt P E v) (hs : (v.station st).state ≠ .held)
    (hv : v.idleAct st = some v') : w.KeepsAt P E v' := by
  unfold Works.idleAct at hv
  extract_lets x at hv
  split at hv
  · split at hv
    · rename_i hp
      split at hv
      · obtain rfl := Option.some.inj hv
        exact .upd h rfl
      · obtain rfl := Option.some.inj hv
        exact .issue h (Station.room_of_empty hp _) (.upd h rfl) (by simp)
    · cases hv
  · split at hv
    · split at hv
      · split at hv
        · obtain rfl := Option.some.inj hv
          exact .startPassContour h
        · obtain rfl := Option.some.inj hv
          exact .endPass h
      · cases hv
    · split at hv
      · split at hv
        · obtain rfl := Option.some.inj hv
          exact .finishProgram h hs
        · cases hv
      · split at hv
        · cases hv
        · exact .headAct h hv

theorem Works.KeepsAt.reissue {st : St} {r : Returned} {rest : List Returned} {v' : Works} (h : w.KeepsAt P E v)
    (hv : v.reissue st r rest = some v') : w.KeepsAt P E v' := by
  unfold Works.reissue at hv
  split at hv
  · rename_i hroom
    obtain rfl := Option.some.inj hv
    refine .issue h hroom (.upd h ?_) (by simp)
    cases r.body <;> rfl
  · cases hv

theorem Works.KeepsAt.awaitingContourAct {st : St} {id : Nat} {c : Contour} {v' : Works} (h : w.KeepsAt P E v)
    (hc : v.contour? id = some c) (hv : v.awaitingContourAct st id c = some v') : w.KeepsAt P E v' := by
  unfold Works.awaitingContourAct at hv
  extract_lets x at hv
  split at hv
  · split at hv
    · split at hv
      · obtain rfl := Option.some.inj hv
        exact .startEpisode h
      · cases hv
    · split at hv
      · rename_i hs
        split at hv
        · cases hv
        · obtain rfl := Option.some.inj hv
          exact .dueRequest h hc hs
        · split at hv
          · obtain rfl := Option.some.inj hv
            exact .startEpisode h
          · cases hv
      · cases hv
  · cases hv

theorem Works.KeepsAt.awaitingAct {st : St} {v' : Works} (h : w.KeepsAt P E v) (hs : (v.station st).state ≠ .held)
    (hv : v.awaitingAct st = some v') : w.KeepsAt P E v' := by
  unfold Works.awaitingAct at hv
  extract_lets x at hv
  split at hv
  · split at hv
    · rename_i hc
      exact .awaitingContourAct h (Works.contour?_of_current? hc) hv
    · split at hv
      · cases hv
      · split at hv
        · obtain rfl := Option.some.inj hv
          exact .finishProgram h hs
        · split at hv
          · cases hv
          · exact .headStarts h hv
  · cases hv

theorem Works.KeepsAt.activeAct {st : St} {v' : Works} (h : w.KeepsAt P E v) (hs : (v.station st).state ≠ .held)
    (hv : v.activeAct st = some v') : w.KeepsAt P E v' := by
  unfold Works.activeAct at hv
  split at hv
  · rename_i hi
    obtain rfl := Option.some.inj hv
    exact .intakeAct h hi
  · extract_lets x at hv
    split at hv
    · exact .awaitingAct h hs hv
    · split at hv
      · exact .reissue h hv
      · split at hv
        · rename_i hc
          exact .contourAct h (Works.contour?_of_current? hc) hv
        · exact .idleAct h hs hv

theorem Works.KeepsAt.teardownAct {st : St} {v' : Works} (h : w.KeepsAt P E v) (hs : (v.station st).state ≠ .held)
    (hv : v.teardownAct st = some v') : w.KeepsAt P E v' := by
  unfold Works.teardownAct at hv
  extract_lets x at hv
  split at hv
  · rename_i hc
    split at hv
    iterate 2
      · obtain rfl := Option.some.inj hv
        exact .issue h (Station.room_of_empty hc.1 _) h rfl
    iterate 2
      · obtain rfl := Option.some.inj hv
        exact .clearProgram h hs
  · cases hv

/-- Whatever a sequencer does of its own accord keeps the laws. -/
theorem Works.KeepsAt.act {st : St} {v' : Works} (h : w.KeepsAt P E v) (hv : v.act st = some v') :
    w.KeepsAt P E v' := by
  unfold Works.act at hv
  split at hv
  · cases hv
  · rename_i hs
    exact .activeAct h (by rw [hs]; decide) hv
  · exact .intakeAct h hv
  · rename_i hs
    exact .teardownAct h (by rw [hs]; decide) hv

/-- An event's settling keeps the laws. -/
theorem Works.KeepsAt.settle {st : St} (h : w.KeepsAt P E v) : w.KeepsAt P E (v.settle st) := by
  refine Works.settle_keeps (P := fun u => w.KeepsAt P E u) (fun u hu => ?_) (fun u u' j hu hj => hu.act hj) st h
  refine hu.trans ⟨rfl, id, rfl, fun _ _ h => h, fun j => ?_, fun j _ => ?_⟩
  · rw [Works.station_requestsDue]
    exact (Station.laws_of_view (x := u.station j) (y := (u.station j).requestDue) rfl).1
  · rw [Works.station_requestsDue]
    exact (Station.laws_of_view (x := u.station j) (y := (u.station j).requestDue) rfl).2

end Sys2Proof.Machine
end

section
/-! PROOFS. The drive's reports, the edges of the lines, admission and the requests that act on the works keep the laws. -/

namespace Sys2Proof.Machine

variable {P : St → Prop} {E : Nat → Prop} {w v u : Works}

/-! ## The drive's reports (R59 to R63) -/

theorem Works.KeepsAt.opDone {st : St} {body : OpBody} (h : w.KeepsAt P E v) : w.KeepsAt P E (v.opDone st body) := by
  have hplace : ∀ x : Station, (x.followPlace body).lawView = x.lawView := by
    intro x
    unfold Station.followPlace Station.setPlace
    split
    · split <;> rfl
    · rfl
  have hdirective : ∀ {v : Works} {mark : Option MarkRef}, w.KeepsAt P E v →
      w.KeepsAt P E (v.directiveDone st mark) := fun h => .upd (.markReport? h) rfl
  unfold Works.opDone
  extract_lets w1
  have h1 : w.KeepsAt P E w1 := .upd h (hplace _)
  split
  · exact .entryCut h1
  · exact .tailCut h1
  · exact h1
  · exact .upd h1 rfl
  · exact .modPass h1
  · exact .modRecovery h1
  · exact hdirective h1
  · exact hdirective h1
  all_goals exact h1

theorem Works.KeepsAt.underrun {st : St} (h : w.KeepsAt P E v) : w.KeepsAt P E (v.underrun st) := by
  unfold Works.underrun
  split
  · split
    · exact h
    · exact .upd (.report h) rfl
  · exact h

theorem Works.KeepsAt.done {st : St} {issue : Byte} (h : w.KeepsAt P E v) : w.KeepsAt P E (v.done st issue) := by
  unfold Works.done
  split
  · rename_i op rest hp
    split
    · extract_lets w1 w2
      have h2 : w.KeepsAt P E w2 :=
        .settle (.opDone (.upd_pair rest h rfl fun hok => pairOk_tail (by rwa [hp] at hok)))
      split
      · exact .underrun h2
      · exact h2
    · exact .settle (.driveLoss h)
  · exact .settle (.driveLoss h)

theorem Works.KeepsAt.pairEnds {st : St} {p : Nat} (h : w.KeepsAt P E v) : w.KeepsAt P E (v.pairEnds st p) := by
  have hfold : ∀ (ops : List Op) (u : Works), w.KeepsAt P E u →
      w.KeepsAt P E (ops.foldl (fun w o => w.opEnds st o.body 0) u) := by
    intro ops
    induction ops with
    | nil => exact fun _ hu => hu
    | cons o ops ih => exact fun u hu => ih _ (.opEnds hu)
  unfold Works.pairEnds
  extract_lets ops w1
  have h1 : w.KeepsAt P E w1 := .upd_pair [] h rfl fun _ => pairOk_nil
  cases ops with
  | nil => exact h1
  | cons op rest => exact hfold _ _ (.opEnds h1)

theorem Works.KeepsAt.settleAwaited {st : St} {position : Option (Nat × Nat)} {code : Option Byte}
    (h : w.KeepsAt P E v) : w.KeepsAt P E (v.settleAwaited st position code) := by
  unfold Works.settleAwaited
  split
  · exact .settleBreak h
  · exact h

theorem Works.KeepsAt.followPlace {st : St} {body : OpBody} (h : w.KeepsAt P E v) :
    w.KeepsAt P E (v.upd st fun x => x.followPlace body) := by
  refine .upd h ?_
  unfold Station.followPlace Station.setPlace
  split
  · split <;> rfl
  · rfl

theorem Works.KeepsAt.stopped {st : St} {issue : Option Byte} {p : Nat} (h : w.KeepsAt P E v) :
    w.KeepsAt P E (v.stopped st issue p) := by
  unfold Works.stopped
  extract_lets x
  split
  · split
    · exact .settle (.settleAwaited (.pairEnds h))
    · exact h
  · split
    · exact .settle (.settleAwaited (.pairEnds (.followPlace h)))
    · exact .settle (.driveLoss h)
  · exact .settle (.driveLoss h)

theorem Works.KeepsAt.fault {st : St} {issue : Byte} {p : Nat} {code : Byte} (h : w.KeepsAt P E v) :
    w.KeepsAt P E (v.fault st issue p code) := by
  unfold Works.fault
  split
  · split
    · exact .settle (.addHolds (.settleAwaited (.pairEnds (.followPlace h))))
    · exact .settle (.driveLoss h)
  · exact .settle (.driveLoss h)

theorem Works.KeepsAt.mainEndCut {st : St} (h : w.KeepsAt P E v) : w.KeepsAt P E (v.mainEndCut st) := by
  unfold Works.mainEndCut
  split
  · split
    · exact .upd (.setState h (by decide)) rfl
    · exact h
  · exact h

theorem Works.KeepsAt.closingCut {st : St} (h : w.KeepsAt P E v) : w.KeepsAt P E (v.closingCut st) := by
  unfold Works.closingCut
  split
  · extract_lets w1 w2
    have h1 : w.KeepsAt P E w1 := .upd h rfl
    have h2 : w.KeepsAt P E w2 := by
      unfold w2
      split
      · exact .addHolds h1
      · exact h1
    exact .tryComplete h2
  · exact h

theorem Works.KeepsAt.choosePath {st : St} (h : w.KeepsAt P E v) : w.KeepsAt P E (v.choosePath st) := by
  unfold Works.choosePath
  split
  · split
    · split
      · exact .modRecovery h
      · exact .modRecovery h
    · exact h
  · exact h

theorem Works.KeepsAt.cutReport {st : St} (h : w.KeepsAt P E v) : w.KeepsAt P E (v.cutReport st) := by
  unfold Works.cutReport
  split
  · rename_i op rest hp
    split
    · extract_lets w1 w2
      have h1 : w.KeepsAt P E w1 := .upd_pair rest h rfl fun hok => pairOk_tail (by rwa [hp] at hok)
      refine .settle ?_
      unfold w2
      split
      · exact .mainEndCut h1
      · exact .closingCut h1
      · exact .choosePath h1
      all_goals exact h1
    all_goals exact h
  · exact h

theorem Works.KeepsAt.takeReport {st : St} {r : DriveReport} (h : w.KeepsAt P E v) :
    w.KeepsAt P E (v.takeReport st r) := by
  cases r with
  | done issue => exact .done h
  | stopped issue p => exact .stopped h
  | fault issue p code => exact .fault h
  | probe result => exact .settle (.probe h)
  | probeEnd => exact .settle (.probeEnd h)
  | threaded => exact .settle (.threaded h)
  | abandoned => exact .settle (.abandoned h)
  | cut => exact .cutReport h

theorem Works.KeepsAt.portMessage {st : St} {r : DriveReport} (h : w.KeepsAt P E v) :
    w.KeepsAt P E (v.portMessage st r) := .takeReport (.upd h rfl)

theorem Works.KeepsAt.portDown {st : St} (h : w.KeepsAt P E v) : w.KeepsAt P E (v.portDown st) :=
  .settle (.driveLoss (.upd h rfl))

/-! ## Lines, alarms and the catch wait (R73, R113, R140, R147, R148) -/

theorem Works.KeepsAt.breakEdge {st : St} (h : w.KeepsAt P E v) : w.KeepsAt P E (v.breakEdge st) := by
  have hcharge : w.KeepsAt P E (v.chargeBreak st) := by
    unfold Works.chargeBreak
    extract_lets w1
    have h1 : w.KeepsAt P E w1 := .upd h rfl
    split
    · exact .callStop h1
    · exact .settle (.settleBreak h1)
  unfold Works.breakEdge
  extract_lets x
  split
  · split
    · exact hcharge
    · exact hcharge
    · exact .upd h rfl
    · exact h
  all_goals exact .breakInEpisode h

theorem Works.KeepsAt.catchEdge {st : St} (h : w.KeepsAt P E v) : w.KeepsAt P E (v.catchEdge st) := by
  unfold Works.catchEdge
  extract_lets x
  split
  · exact h
  · split
    · exact .settle (.tryComplete (.upd h rfl))
    · split
      · exact .addHolds h
      · exact h

theorem Works.KeepsAt.edge {st : St} {k : Line} (h : w.KeepsAt P E v) : w.KeepsAt P E (v.edge st k) := by
  cases k with
  | breakLine => exact .breakEdge h
  | catchLine => exact .catchEdge h
  | guardLine => exact .addHolds h

theorem Works.KeepsAt.alarmRise {st : St} (h : w.KeepsAt P E v) : w.KeepsAt P E (v.alarmRise st) := by
  unfold Works.alarmRise Works.gapRise
  extract_lets x
  have hr : w.KeepsAt P E (v.raise (flagGapAlarm st)) := .raise h
  split
  · exact .addHolds hr
  · split
    · split
      · exact .addHolds hr
      · exact hr
    · exact hr

theorem Works.KeepsAt.catchExpiry {st : St} (h : w.KeepsAt P E v) : w.KeepsAt P E (v.catchExpiry st) := by
  unfold Works.catchExpiry
  split
  · exact h
  · split
    · exact .addHolds (.upd h rfl)
    · exact h

/-! ## Admission (chapter 3) -/

/-- A frame that passes the checks finds room in the queue (R39, R45). -/
theorem Works.queue_lt_of_judge {st : St} {f : PathFrame} (h : w.judge st f = none) :
    (w.station st).adm.queue.length < Config.queueSize := by
  unfold Works.judge at h
  extract_lets x at h
  split at h
  · cases h
  · cases h
  · cases h
  · cases h
  all_goals
    split at h
    · cases h
    · split at h
      · cases h
      · split at h
        · cases h
        · split at h
          · cases h
          · split at h
            · cases h
            · rename_i hfull
              exact Nat.lt_of_not_le hfull

/-- Admission's own state after an acceptance has the queue as it was. -/
theorem Admission.accept_queue (a : Admission) (f : PathFrame) : (a.accept f).queue = a.queue := by
  cases hh : f.handleFrom a with
  | none => simp only [Admission.accept, hh]
  | some k => simp only [Admission.accept, hh, Admission.hold]

theorem Works.KeepsAt.accept {st : St} {f : PathFrame} (h : w.KeepsAt P E v) (hj : v.judge st f = none) :
    w.KeepsAt P E (v.accept st f) := by
  have hroom := Works.queue_lt_of_judge hj
  unfold Works.accept
  extract_lets entry w1 w2
  have h1 : w.KeepsAt P E w1 := .upd h (by simp [Station.lawView, Admission.accept_queue])
  have h2 : w.KeepsAt P E w2 := by
    unfold w2
    split
    · refine h1.modContour (fun _ => rfl) (fun _ => rfl) fun c hc => ?_
      revert hc
      unfold Contour.atRest Contour.arrive
      cases f.isFirst <;> simp
    · exact h1
  have hq : (w2.station st).adm.queue = (v.station st).adm.queue := by
    have hw1 : (w1.station st).adm.queue = (v.station st).adm.queue := by
      simp only [w1, Works.station_upd_same, Admission.accept_queue]
    rw [← hw1]
    unfold w2
    split <;> rfl
  split
  · exact .markReport? (.progressUpdate (.upd h2 rfl))
  · refine .settle (h2.upd_bounds rfl rfl rfl fun ⟨_, hr, hl, hp⟩ => ⟨?_, hr, hl, hp⟩)
    dsimp only
    rw [hq, List.length_append]
    exact Nat.succ_le_of_lt hroom

theorem Works.KeepsAt.takePathFrame {st : St} {f : PathFrame} (h : w.KeepsAt P E v) :
    w.KeepsAt P E (v.takePathFrame st f) := by
  unfold Works.takePathFrame
  split
  · exact .report h
  · rename_i hj
    exact .accept h hj

/-! ## Requests that act on the works (chapters 2, 4, 9 and 11) -/

/-- BEGIN_PROGRAM on an IDLE station, which holds no reasons (R36). -/
theorem Works.KeepsAt.begin {st : St} {tag : Byte} {first : Seq} (h : w.KeepsAt P E v)
    (hs : (v.station st).state = .idle) : w.KeepsAt P E (v.upd st fun x => x.begin tag first) := by
  have hnone : (v.station st).holdsWhenHeld → (v.station st).holds = Holds.none :=
    fun hw => Classical.byContradiction fun hne => nomatch hs.symm.trans (hw hne)
  refine h.upd_station ⟨fun ⟨_, hr, hl, hp⟩ => ⟨Nat.zero_le _, ?_, hl, hp⟩, fun h => h, fun hw hne => ?_⟩ fun hl => ?_
  · simpa [Station.begin] using hr
  · exact absurd (hnone hw) hne
  · exact ⟨fun h => (nomatch h), fun hne => absurd (hnone hl.whenHeld) hne⟩

theorem Works.KeepsAt.resumed {st : St} {why : Clearing} (h : w.KeepsAt (· ≠ st) E v) :
    w.KeepsAt P E ((v.resumeIfClear st why).settle st) := .settle h.resume

theorem Works.keeps_skipContour (w : Works) (st : St) (id : Nat) : w.Keeps (w.skipContour st id) :=
  .resumed (.failSkip (Works.keepsAt_removeHolds w st _))

theorem Works.KeepsAt.takeUp {st : St} {id : Nat} {c : Contour} (h : w.KeepsAt P E v) :
    w.KeepsAt P E (v.takeUp st id c) := by
  have hclosing : w.KeepsAt P E (v.retryClosing st id c) := by
    unfold Works.retryClosing
    extract_lets w1 w2
    have h2 : w.KeepsAt P E w2 := .upd (.upd h rfl) rfl
    split
    · split
      · exact .upd (.setState h2 (by decide)) rfl
      · exact h2
    · exact .tryComplete h2
    all_goals exact h2
  unfold Works.takeUp
  split
  · split
    · exact .upd h rfl
    · exact .modPass h
    all_goals exact h
  · split
    · exact .modRecovery h
    · exact hclosing

theorem Works.keeps_retry (w : Works) (st : St) (id : Nat) (c : Contour) : w.Keeps (w.retry st id c) := by
  have h1 : w.Keeps (w.modContour id fun c => { c with prog := { c.prog with pendingFailure := none, breaks := 0 } }) :=
    KeepsAt.modContour (.refl w) (fun _ => rfl) (fun _ => rfl) fun _ h => h
  exact .resumed (.takeUp (h1.at.trans (Works.keepsAt_removeHolds _ st _)))

/-- What a judged station request makes of the works keeps the laws. -/
def judgeKeeps (judge : St → State → Except ReplyStatus Works) : Prop :=
  ∀ st s w', judge st s = .ok w' → s.works.Keeps w'

theorem judgeKeeps_hold : judgeKeeps judgeHold := by
  intro st s w' h
  unfold judgeHold at h
  split at h
  · cases h
    exact .addHolds (.refl _)
  · cases h

theorem judgeKeeps_resume : judgeKeeps judgeResume := by
  intro st s w' h
  unfold judgeResume at h
  extract_lets x at h
  split at h
  · cases h
  · split at h
    · cases h
    · split at h
      · cases h
      · cases h
        exact .resumed (Works.keepsAt_removeHolds _ st _)

theorem judgeKeeps_confirm : judgeKeeps judgeConfirm := by
  intro st s w' h
  unfold judgeConfirm at h
  extract_lets x w1 at h
  split at h
  · cases h
  · cases h
    exact .resumed (.tryComplete (.upd (Works.keepsAt_removeHolds _ st _) rfl))

theorem judgeKeeps_retry : judgeKeeps judgeRetry := by
  intro st s w' h
  unfold judgeRetry at h
  split at h
  · cases h
  · cases h
    exact Works.keeps_retry _ _ _ _

theorem judgeKeeps_abort : judgeKeeps judgeAbort := by
  intro st s w' h
  unfold judgeAbort at h
  split at h
  · cases h
  · cases h
    exact .refl _
  all_goals
    cases h
    exact .settle (.startTeardown (.refl _))

theorem Works.keeps_setPlan (w : Works) (id : Nat) (st : St) (p : Plan) : w.Keeps (w.setPlan id st p) :=
  .settle (KeepsAt.modContour (.refl w) (fun _ => rfl) (fun _ => rfl) fun _ h => h)

theorem Works.keeps_setTime (w : Works) (t : Time) : w.Keeps (w.setTime t) := by
  have hs : ∀ st, (w.setTime t).station st = (w.station st).moveWait (t - w.time) := fun st =>
    PerStation.get_ofStations _ _
  refine ⟨rfl, id, rfl, fun _ _ h => h, fun st => ?_, fun st _ => ?_⟩
  · rw [hs]
    exact (Station.laws_of_view (x := w.station st) (y := (w.station st).moveWait (t - w.time)) rfl).1
  · rw [hs]
    exact (Station.laws_of_view (x := w.station st) (y := (w.station st).moveWait (t - w.time)) rfl).2

end Sys2Proof.Machine
end

section
/-! PROOFS. What every change of the state keeps, and that the upstream lane, the dispatch of requests and the link keep it. -/

namespace Sys2Proof.Machine

/-! ## The state -/

/-- A change of the state keeps the laws that every step keeps. -/
structure State.Keeps (s t : State) : Prop where
  link : s.linkOk → t.linkOk
  gap : s.gapInRange → t.gapInRange
  station : ∀ st, (s.works.station st).Keeps (t.works.station st)
  hold : s.holdLaw → t.holdLaw
  table : s.tableLaw → t.tableLaw
  kerf : s.kerfLaw → t.kerfLaw
  slot : s.tableLaw → s.slotLaw → t.slotLaw

variable {s t u : State}

theorem State.Keeps.refl (s : State) : s.Keeps s := ⟨id, id, fun _ => .refl _, id, id, id, fun _ => id⟩

theorem State.Keeps.trans (h : s.Keeps t) (h' : t.Keeps u) : s.Keeps u where
  link := h'.link ∘ h.link
  gap := h'.gap ∘ h.gap
  station st := (h.station st).trans (h'.station st)
  hold := h'.hold ∘ h.hold
  table := h'.table ∘ h.table
  kerf := h'.kerf ∘ h.kerf
  slot ht hs := h'.slot (h.table ht) (h.slot ht hs)

/-- What a table with rising keys holds is found under its key. -/
theorem tableFind_of_mem {α : Type} {p : Nat × α} : ∀ {t : List (Nat × α)}, (t.map Prod.fst).Pairwise (· < ·) → p ∈ t →
    tableFind t p.1 = some p.2
  | (j, a) :: t, hs, hp => by
    obtain ⟨hlt, hs⟩ := List.pairwise_cons.mp hs
    rcases List.mem_cons.mp hp with rfl | hp
    · simp [tableFind]
    · have : j ≠ p.1 := Nat.ne_of_lt (hlt _ (List.mem_map_of_mem hp))
      simp only [tableFind, this, if_false]
      exact tableFind_of_mem hs hp

/-- What is found under a key stands in the table. -/
theorem mem_of_tableFind {α : Type} {k : Nat} {a : α} : ∀ {t : List (Nat × α)}, tableFind t k = some a → (k, a) ∈ t
  | (j, b) :: t, h => by
    by_cases hj : j = k
    · subst hj
      simp only [tableFind, if_true, Option.some.injEq] at h
      simp [h]
    · simp only [tableFind, hj, if_false] at h
      exact List.mem_cons_of_mem _ (mem_of_tableFind h)

/-- The table law is a law of the keys. -/
theorem State.tableLaw_iff (s : State) :
    s.tableLaw ↔ (s.works.contours.map Prod.fst).Pairwise (· < ·) ∧ ∀ k ∈ s.works.contours.map Prod.fst, 1 ≤ k ∧ k ≤ 255 := by
  simp only [State.tableLaw, tableSorted_iff, List.mem_map, forall_exists_index, and_imp, forall_apply_eq_imp_iff₂]

/-- In a table with rising keys, the contours at rest hold no slots exactly when each does that is found. -/
theorem State.slotLaw_iff (h : s.tableLaw) : s.slotLaw ↔ s.works.slots = 4096 ∧ ∀ id, s.works.restsAt id := by
  have hs := ((State.tableLaw_iff s).mp h).1
  refine and_congr_right fun _ => ⟨fun hr id c hc => hr _ (mem_of_tableFind hc), fun hr p hp => ?_⟩
  exact hr p.1 p.2 (tableFind_of_mem hs hp)

/-- A change of the works that keeps their laws keeps those of the state. -/
theorem State.Keeps.of_works (hw : s.works.Keeps t.works) (hl : s.linkOk → t.linkOk)
    (hg : s.gapInRange → t.gapInRange) : s.Keeps t where
  link := hl
  gap := hg
  station := hw.station
  hold h st := hw.hold st trivial (h st)
  table h := by rw [State.tableLaw_iff, hw.keys]; exact (State.tableLaw_iff s).mp h
  kerf := hw.kerf
  slot ht hs := by
    have ht' : t.tableLaw := by rw [State.tableLaw_iff, hw.keys]; exact (State.tableLaw_iff s).mp ht
    obtain ⟨hsum, hrest⟩ := (State.slotLaw_iff ht).mp hs
    exact (State.slotLaw_iff ht').mpr ⟨hw.slots.trans hsum, fun id => hw.rests id trivial (hrest id)⟩

theorem State.Keeps.onWorks {g : Works → Works} (h : s.Keeps t) (hg : t.works.Keeps (g t.works)) :
    s.Keeps (t.onWorks g) := h.trans (.of_works hg id id)

/-- A change outside the works, the link and the Gap Monitor with its store. -/
theorem State.Keeps.rest (hw : t.works = s.works) (hl : s.linkOk → t.linkOk) (hg : s.gapInRange → t.gapInRange) :
    s.Keeps t := .of_works (by rw [hw]; exact .refl _) hl hg

/-! ## The upstream lane (R183, R185) -/

theorem State.keeps_sendReport (s : State) : s.Keeps s.sendReport := by
  unfold State.sendReport
  dsimp only
  split
  · exact .refl s
  · rename_i st r rest hr
    obtain ⟨j, -, hj⟩ := List.exists_of_findSome?_eq_some hr
    split at hj
    · cases hj
    · rename_i r' rest' hq
      cases hj
      refine .of_works (Works.KeepsAt.upd_bounds (.refl _) rfl rfl rfl fun ⟨h1, h2, h3, h4⟩ => ⟨h1, ?_, h3, h4⟩) id id
      rw [hq, List.length_cons] at h2
      exact Nat.le_of_succ_le h2

theorem State.keeps_upstream (s : State) : s.Keeps s.upstream := by
  unfold State.upstream
  split
  · exact .refl s
  · split
    · rename_i hr
      refine .rest rfl (fun ⟨hm, hl, he⟩ => ⟨hm, ?_, he⟩) id
      rw [hr, List.length_cons] at hl
      exact Nat.le_trans (Nat.add_le_add_right (Nat.le_succ _) _) hl
    · split
      · unfold State.sendNotice
        extract_lets n s1
        have h1 : s.Keeps s1 := .onWorks (.refl s) (Works.KeepsAt.parts (.refl _) rfl rfl rfl)
        split
        · exact h1.trans (State.keeps_sendReport s1)
        · exact h1.trans (.rest rfl id id)
      · exact State.keeps_sendReport s

/-! ## Requests (R179, R180) -/

/-- An answer finds room in the reply queue. -/
theorem State.Keeps.answer {f : MgmtFrame} {k : ReplyStatus} {d : ReplyData} (h : s.Keeps t) (hr : t.replyRoom = true) :
    s.Keeps (t.answer f k d) := by
  have hroom : t.replies.length + t.reserved < Config.replyPlaces := of_decide_eq_true hr
  refine h.trans (.rest rfl (fun ⟨hm, _, he⟩ => ⟨hm, ?_, he⟩) id)
  rw [State.answer_replies, List.length_append, List.length_singleton]
  change _ + t.reserved ≤ _
  omega

/-- A unit's rule keeps the laws wherever the reply queue has room. -/
def ruleKeeps (rule : Authority → MgmtFrame → State → State) : Prop :=
  ∀ a f (s : State), s.replyRoom = true → s.Keeps (rule a f s)

/-- Frames leave the management buffer one at a time. -/
theorem State.keeps_takeOldest {p : MgmtFrame → Bool} {f : MgmtFrame} {rest : List MgmtFrame}
    (h : takeOldest p s.mgmt = some (f, rest)) : s.Keeps { s with mgmt := rest } := by
  obtain ⟨-, -, hl⟩ := takeOldest_some _ _ _ _ h
  refine .rest rfl (fun ⟨hm, hr, he⟩ => ⟨?_, hr, he⟩) id
  rw [hl] at hm
  exact Nat.le_of_succ_le hm

theorem State.keeps_serve (s : State) {u : MgmtUnit} {code : Byte} {len : Nat}
    {rule : Authority → MgmtFrame → State → State} (hrule : ruleKeeps rule) : s.Keeps (s.serve u code len rule) := by
  unfold State.serve
  split
  · exact .refl s
  · rename_i f rest ho
    have h1 := State.keeps_takeOldest ho
    split
    · rename_i hc
      obtain ⟨-, hr⟩ := hc
      unfold State.dispatch
      split
      · exact h1.answer hr
      · split
        · exact h1.trans (hrule _ _ _ hr)
        · exact h1.answer hr
    · exact .refl s

theorem State.keeps_serveUnknown (s : State) (u : MgmtUnit) : s.Keeps (s.serveUnknown u) := by
  unfold State.serveUnknown
  split
  · exact .refl s
  · rename_i f rest ho
    split
    · rename_i hc
      exact (State.keeps_takeOldest ho).answer hc.2
    · exact .refl s

theorem State.keeps_serveUnknownUnit (s : State) : s.Keeps s.serveUnknownUnit := by
  unfold State.serveUnknownUnit
  split
  · exact .refl s
  · rename_i f rest ho
    split
    · rename_i hr
      exact (State.keeps_takeOldest ho).answer hr
    · exact .refl s

/-! ## The link (R177, R178) -/

theorem State.keeps_linkError (s : State) : s.Keeps s.linkError :=
  .of_works (Works.KeepsAt.raise (.refl _)) (fun ⟨hm, hr, _⟩ => ⟨hm, hr, saturate_le _ _⟩) id

theorem State.keeps_takePath (s : State) (f : PathFrame) : s.Keeps (s.takePath f) := by
  unfold State.takePath
  split
  · exact .onWorks (.refl s) (.takePathFrame (.refl _))
  · exact State.keeps_linkError s

theorem State.keeps_takeMgmt (s : State) (f : MgmtFrame) : s.Keeps (s.takeMgmt f) := by
  unfold State.takeMgmt
  split
  · exact State.keeps_linkError s
  · rename_i hc
    refine .rest rfl (fun ⟨_, hr, he⟩ => ⟨?_, hr, he⟩) id
    rw [List.length_append, List.length_singleton]
    simp only [not_or, Nat.not_le] at hc
    exact hc.2.2

theorem State.keeps_takeFrame (s : State) (f : DownFrame) : s.Keeps (s.takeFrame f) := by
  cases f with
  | path f => exact State.keeps_takePath s f
  | mgmt f => exact State.keeps_takeMgmt s f

end Sys2Proof.Machine
end

section
/-! PROOFS. Every unit's requests, PART RESET and every command keep the laws, and so does every step. -/

namespace Sys2Proof.Machine

variable {s t u : State}

/-! ## Station requests (chapters 4 and 9) -/

/-- A station's own rule keeps the laws wherever the reply queue has room. -/
def stationRuleKeeps (rule : St → MgmtFrame → State → State) : Prop :=
  ∀ st f (s : State), s.replyRoom = true → s.Keeps (rule st f s)

theorem stationRuleKeeps.request {rule : St → MgmtFrame → State → State} (h : stationRuleKeeps rule) :
    ruleKeeps (stationRequest rule) := by
  intro a f s hr
  unfold stationRequest
  split
  · exact .answer (.refl s) hr
  · exact h _ _ _ hr

theorem judgeKeeps.work {judge : St → State → Except ReplyStatus Works} (h : judgeKeeps judge) :
    stationRuleKeeps (stationWork judge) := by
  intro st f s hr
  unfold stationWork
  split
  · rename_i w hw
    exact .answer (t := { s with works := w }) (.of_works (h _ _ _ hw) id id) hr
  · exact .answer (.refl s) hr

theorem stationRuleKeeps_beginProgram : stationRuleKeeps beginProgram := by
  intro st f s hr
  unfold beginProgram
  extract_lets tag first
  have hs : s.Keeps s := .refl s
  split
  · exact hs.answer hr
  · split
    · exact hs.answer hr
    · rename_i hidle
      split
      · exact hs.answer hr
      · exact .answer (hs.onWorks (.begin (.refl _) (Classical.not_not.mp hidle))) hr

theorem stationRuleKeeps_skipContour : stationRuleKeeps skipContour := by
  intro st f s hr
  unfold skipContour
  split
  · exact .answer (.refl s) hr
  · exact .answer (State.Keeps.onWorks (.refl s) (Works.keeps_skipContour _ _ _)) hr

theorem stationRuleKeeps_statusOf : stationRuleKeeps statusOf := fun _ _ s hr => .answer (.refl s) hr

theorem ruleKeeps_setStation : ruleKeeps setStation := by
  intro a f s hr
  have hs : s.Keeps s := .refl s
  unfold setStation
  split
  · split
    · exact hs.answer hr
    · refine .answer (hs.onWorks (.upd (.refl _) ?_)) hr
      unfold Station.setParams
      split <;> rfl
  · exact hs.answer hr
  · exact hs.answer hr

/-! ## The Contour Table (chapters 1 and 2) -/

theorem mem_tablePut {α : Type} {k : Nat} {a : α} {p : Nat × α} :
    ∀ {t : List (Nat × α)}, p ∈ tablePut t k a → p = (k, a) ∨ p ∈ t
  | [], h => .inl (List.mem_singleton.mp h)
  | (j, b) :: t, h => by
    unfold tablePut at h
    split at h
    · exact List.mem_cons.mp h
    · split at h
      · exact (List.mem_cons.mp h).imp id (List.mem_cons_of_mem _)
      · rcases List.mem_cons.mp h with rfl | h
        · exact .inr List.mem_cons_self
        · exact (mem_tablePut h).imp id (List.mem_cons_of_mem _)

/-- A record that is put in takes the place its key gives it. -/
theorem tablePut_keys_rise {α : Type} (k : Nat) (a : α) : ∀ {t : List (Nat × α)},
    (t.map Prod.fst).Pairwise (· < ·) → ((tablePut t k a).map Prod.fst).Pairwise (· < ·)
  | [], _ => List.pairwise_singleton _ _
  | (j, b) :: t, h => by
    obtain ⟨hlt, ht⟩ := List.pairwise_cons.mp h
    unfold tablePut
    split
    · rename_i hkj
      exact List.pairwise_cons.mpr
        ⟨fun i hi => (List.mem_cons.mp hi).elim (fun he => he ▸ hkj) fun hi => Nat.lt_trans hkj (hlt i hi), h⟩
    · split
      · rename_i hkj
        subst hkj
        exact h
      · refine List.pairwise_cons.mpr ⟨fun i hi => ?_, tablePut_keys_rise k a ht⟩
        obtain ⟨p, hp, rfl⟩ := List.mem_map.mp hi
        rcases mem_tablePut hp with rfl | hp
        · dsimp only
          omega
        · exact hlt _ (List.mem_map_of_mem hp)

/-- What a record that is put in adds to a number of each record, less what the one it replaces gave. -/
theorem tablePut_sum {α : Type} (n : α → Nat) (k : Nat) (a : α) : ∀ {t : List (Nat × α)},
    (t.map Prod.fst).Pairwise (· < ·) →
      ((tablePut t k a).map fun p => n p.2).sum + ((tableFind t k).map n).getD 0 = (t.map fun p => n p.2).sum + n a
  | [], _ => by simp [tablePut, tableFind]
  | (j, b) :: t, h => by
    obtain ⟨hlt, ht⟩ := List.pairwise_cons.mp h
    unfold tablePut
    split
    · rename_i hkj
      have hnone : tableFind ((j, b) :: t) k = none := by
        cases hf : tableFind ((j, b) :: t) k with
        | none => rfl
        | some c =>
          rcases List.mem_cons.mp (mem_of_tableFind hf) with hm | hm
          · cases hm
            omega
          · have := hlt _ (List.mem_map_of_mem hm)
            dsimp only at this
            omega
      simp only [hnone, Option.map_none, Option.getD_none, List.map_cons, List.sum_cons]
      omega
    · split
      · rename_i hkj
        subst hkj
        simp only [tableFind, if_true, Option.map_some, Option.getD_some, List.map_cons, List.sum_cons]
        omega
      · rename_i hkj
        have ih := tablePut_sum n k a ht
        simp only [tableFind, if_neg (Ne.symm hkj), List.map_cons, List.sum_cons]
        omega

theorem tableDrop_sublist {α : Type} (k : Nat) : ∀ t : List (Nat × α), (tableDrop t k).Sublist t
  | [] => .slnil
  | (j, b) :: t => by
    unfold tableDrop
    split
    · exact List.sublist_cons_self _ _
    · exact (tableDrop_sublist k t).cons_cons _

theorem tableDrop_sum {α : Type} (n : α → Nat) (k : Nat) : ∀ t : List (Nat × α),
    ((tableDrop t k).map fun p => n p.2).sum + ((tableFind t k).map n).getD 0 = (t.map fun p => n p.2).sum
  | [] => by simp [tableDrop, tableFind]
  | (j, b) :: t => by
    by_cases hj : j = k
    · simp only [tableDrop, tableFind, hj, if_true, Option.map_some, Option.getD_some, List.map_cons, List.sum_cons]
      omega
    · have ih := tableDrop_sum n k t
      simp only [tableDrop, tableFind, hj, if_false, List.map_cons, List.sum_cons]
      omega

/-- A change of the Contour Table alone that keeps its laws. -/
theorem State.Keeps.of_table {cs : List (Nat × Contour)}
    (htable : s.tableLaw → ({ s with works := { s.works with contours := cs } } : State).tableLaw)
    (hkerf : s.kerfLaw → ∀ p ∈ cs, p.2.kerfLaw)
    (hslot : s.tableLaw → s.slotLaw → ({ s with works := { s.works with contours := cs } } : State).slotLaw) :
    s.Keeps (s.onWorks fun w => { w with contours := cs }) :=
  ⟨id, id, fun _ => .refl _, id, htable, hkerf, hslot⟩

/-- A record that can be defined anew or freed holds no slots (R13, R14, R86, R88). -/
theorem Works.reservation_of_replaceable {w : Works} {id : Nat} {c : Contour} (h : w.replaceable id c = true)
    (hw : w.restsAt id) (hc : w.contour? id = some c) : c.prog.reservation = 0 := by
  refine hw c hc ?_
  unfold Works.replaceable at h
  unfold Contour.atRest
  revert h
  cases c.state <;> simp [ContourState.terminal]

theorem ruleKeeps_defineContour : ruleKeeps defineContour := by
  intro a f s hr
  have hs : s.Keeps s := .refl s
  unfold defineContour
  split
  · exact hs.answer hr
  · rename_i hid
    split
    · exact hs.answer hr
    · rename_i cfg _
      split
      · rename_i hdef
        have htable : s.tableLaw → ({ s with works := { s.works with
            contours := tablePut s.works.contours f.id (Contour.fresh cfg) } } : State).tableLaw := fun h => by
          rw [State.tableLaw_iff] at h ⊢
          obtain ⟨hrise, hrange⟩ := h
          refine ⟨tablePut_keys_rise _ _ hrise, fun k hk => ?_⟩
          obtain ⟨p, hp, rfl⟩ := List.mem_map.mp hk
          rcases mem_tablePut hp with rfl | hp
          · have hlt := (byteAt f.args 0).isLt
            exact ⟨Nat.one_le_iff_ne_zero.mpr hid, Nat.le_of_lt_succ hlt⟩
          · exact hrange _ (List.mem_map_of_mem hp)
        refine .answer (.of_table htable (fun h p hp => ?_) fun ht hsl => ?_) hr
        · rcases mem_tablePut hp with rfl | hp
          · exact List.Pairwise.nil
          · exact h p hp
        · obtain ⟨hsum, hrest⟩ := (State.slotLaw_iff ht).mp hsl
          have hput := tablePut_sum (fun c : Contour => c.prog.reservation) f.id (Contour.fresh cfg)
            ((State.tableLaw_iff s).mp ht).1
          have hold : ((tableFind s.works.contours f.id).map fun c : Contour => c.prog.reservation).getD 0 = 0 := by
            cases hc : s.works.contour? f.id with
            | none => rw [show tableFind s.works.contours f.id = none from hc]; rfl
            | some c =>
              rw [show tableFind s.works.contours f.id = some c from hc]
              refine Works.reservation_of_replaceable ?_ (hrest f.id) hc
              simpa only [Works.definable, hc] using hdef
          rw [hold] at hput
          refine ⟨?_, fun p hp hat => ?_⟩
          · simp only [Works.slots] at hsum ⊢
            have hfresh : (Contour.fresh cfg).prog.reservation = 0 := rfl
            omega
          · rcases mem_tablePut hp with rfl | hp
            · rfl
            · exact hsl.2 p hp hat
      · exact hs.answer hr

theorem ruleKeeps_deleteContour : ruleKeeps deleteContour := by
  intro a f s hr
  have hs : s.Keeps s := .refl s
  unfold deleteContour
  split
  · exact hs.answer hr
  · split
    · exact hs.answer hr
    · rename_i c hc
      split
      · rename_i hrep
        have hsub := tableDrop_sublist f.id s.works.contours
        refine .answer (.of_table (fun h => ?_) (fun h p hp => h p (hsub.subset hp)) fun ht hsl => ?_) hr
        · rw [State.tableLaw_iff] at h ⊢
          exact ⟨h.1.sublist (hsub.map _), fun k hk => h.2 k ((hsub.map _).subset hk)⟩
        · obtain ⟨hsum, hrest⟩ := (State.slotLaw_iff ht).mp hsl
          have hdrop := tableDrop_sum (fun c : Contour => c.prog.reservation) f.id s.works.contours
          rw [show tableFind s.works.contours f.id = some c from hc, Option.map_some, Option.getD_some,
            Works.reservation_of_replaceable hrep (hrest f.id) hc] at hdrop
          refine ⟨?_, fun p hp => hsl.2 p (hsub.subset hp)⟩
          simp only [Works.slots] at hsum ⊢
          omega
      · exact hs.answer hr

theorem ruleKeeps_readContour : ruleKeeps readContour := by
  intro a f s hr
  unfold readContour
  split
  · exact .answer (.refl s) hr
  · split
    · exact .answer (.refl s) hr
    · exact .answer (.refl s) hr

theorem ruleKeeps_setPlan : ruleKeeps setPlan := by
  intro a f s hr
  have hs : s.Keeps s := .refl s
  unfold setPlan
  split
  · exact hs.answer hr
  · split
    · exact hs.answer hr
    · split
      · exact hs.answer hr
      · split
        · exact .answer (hs.onWorks (Works.keeps_setPlan _ _ _ _)) hr
        · exact hs.answer hr

theorem ruleKeeps_readPlan : ruleKeeps readPlan := by
  intro a f s hr
  unfold readPlan
  split
  · exact .answer (.refl s) hr
  · split
    · exact .answer (.refl s) hr
    · exact .answer (.refl s) hr

theorem ruleKeeps_kerfStatus : ruleKeeps kerfStatus := fun _ _ s hr => .answer (.refl s) hr

/-! ## The Gap Monitor (chapter 10) -/

/-- A change of one channel that keeps it in range. -/
theorem State.Keeps.onChannel {st : St} {g : GapChannel → GapChannel} (h : s.Keeps t)
    (hg : (t.gap.channels.get st).inRange → (g (t.gap.channels.get st)).inRange) : s.Keeps (t.onChannel st g) := by
  refine h.trans (.rest rfl id fun ⟨ho, hc, hs, hw⟩ => ⟨ho, fun j => ?_, hs, hw⟩)
  change ((t.gap.channels.modify st g).get j).inRange
  by_cases hj : j = st
  · subst hj
    rw [PerStation.get_modify_same]
    exact hg (hc j)
  · rw [PerStation.get_modify_other _ _ _ _ hj]
    exact hc j

/-- A GAP rule keeps the laws wherever no GAP_SINGLE is outstanding and the reply queue has room. -/
theorem ruleKeeps_gapRequest {rule : St → MgmtFrame → State → State}
    (h : ∀ st f (s : State), s.replyRoom = true → s.gap.outstanding.isSome = false → s.Keeps (rule st f s)) :
    ruleKeeps (gapRequest rule) := by
  intro a f s hr
  unfold gapRequest
  split
  · exact .answer (.refl s) hr
  · rename_i ho
    split
    · exact .answer (.refl s) hr
    · exact h _ _ _ hr (Bool.not_eq_true _ ▸ ho)

/-- The values of an accepted GAP_CONFIG are in range (R169). -/
theorem gapConfigOf_inRange {a : List Byte} {cfg : GapConfig} (h : gapConfigOf a = some cfg) :
    16 ≤ cfg.window ∧ cfg.window ≤ 256 ∧ cfg.window % 16 = 0 ∧ cfg.threshold ≤ 4095 ∧ 1 ≤ cfg.ratio ∧ cfg.ratio ≤ 100
      ∧ cfg.gain ≤ 4095 := by
  unfold gapConfigOf at h
  extract_lets at h
  split at h
  · split at h
    · rename_i hr
      cases h
      exact hr
    · cases h
  · cases h

theorem GapChannel.inRange_configure {c : GapChannel} {a : List Byte} {cfg : GapConfig} (h : c.inRange)
    (hcfg : gapConfigOf a = some cfg) : (c.configure cfg).inRange := by
  obtain ⟨-, -, -, -, -, -, -, -, -, hmax, hmin, hlast, hlatest⟩ := h
  obtain ⟨h16, h256, hmod, hth, hr1, hr2, hgain⟩ := gapConfigOf_inRange hcfg
  exact ⟨h16, h256, hmod, hth, hr1, hr2, hgain, Nat.lt_of_lt_of_le (Nat.succ_pos 15) h16, Nat.le_refl 0, hmax, hmin, hlast,
    hlatest⟩

theorem ruleKeeps_gapConfig : ruleKeeps (gapRequest gapConfig) := by
  refine ruleKeeps_gapRequest fun st f s hr _ => ?_
  unfold gapConfig
  split
  · exact .answer (.refl s) hr
  · rename_i cfg hcfg
    exact .answer (.onChannel (.refl s) fun h => GapChannel.inRange_configure h hcfg) hr

theorem ruleKeeps_gapSingle : ruleKeeps (gapRequest gapSingle) := by
  refine ruleKeeps_gapRequest fun st f s hr ho => ?_
  unfold gapSingle
  split
  · exact .answer (.refl s) hr
  · refine .rest rfl (fun ⟨hm, _, he⟩ => ⟨hm, ?_, he⟩) id
    have hroom : s.replies.length + s.reserved < Config.replyPlaces := of_decide_eq_true hr
    simp only [State.reserved, ho, Option.isSome_some, if_true, Bool.false_eq_true, if_false] at hroom ⊢
    omega

theorem ruleKeeps_gapRead : ruleKeeps (gapRequest gapRead) :=
  ruleKeeps_gapRequest fun _ _ s hr _ => .answer (.refl s) hr

theorem ruleKeeps_gapClear : ruleKeeps (gapRequest gapClear) :=
  ruleKeeps_gapRequest fun _ _ s hr _ => .answer (.onChannel (.refl s) fun h => h) hr

theorem ruleKeeps_gapResetExtremes : ruleKeeps (gapRequest gapResetExtremes) :=
  ruleKeeps_gapRequest fun _ _ s hr _ => .answer (.onChannel (.refl s)
    fun ⟨h1, h2, h3, h4, h5, h6, h7, h8, h9, _, _, h12⟩ =>
      ⟨h1, h2, h3, h4, h5, h6, h7, h8, h9, Nat.zero_le _, Nat.le_refl _, h12⟩) hr

/-- A corrected code of 12 bits has 12 bits (R164). -/
theorem corrected_le {raw offset gain : Nat} (hraw : raw ≤ 4095) (hgain : gain ≤ 4095) :
    corrected raw offset gain ≤ 4095 := by
  have hmul : (raw - offset) * gain ≤ 4095 * 4095 := Nat.mul_le_mul (by omega) hgain
  unfold corrected
  omega

/-- A window of at most as many shorts as conversions has a ratio of at most 100 (R166). -/
theorem shortRatio_le {shorts window : Nat} (hw : 0 < window) (h : shorts ≤ window) : shorts * 100 / window ≤ 100 := by
  calc shorts * 100 / window ≤ window * 100 / window := Nat.div_le_div_right (Nat.mul_le_mul_right _ h)
    _ = 100 := by rw [Nat.mul_comm, Nat.mul_div_cancel _ hw]

theorem GapChannel.inRange_sample {c : GapChannel} {raw offset : Nat} (h : c.inRange) (hraw : raw ≤ 4095) :
    (c.sample raw offset).inRange := by
  obtain ⟨h16, h256, hmod, hth, hr1, hr2, hgain, hcount, hshorts, hmax, hmin, hlast, hlatest⟩ := h
  have hcode := corrected_le (offset := offset) hraw hgain
  unfold GapChannel.sample
  extract_lets code shorts c1
  have hs : shorts ≤ c.count + 1 := by
    unfold shorts
    split <;> omega
  have hl : ∀ p, some (raw, code) = some p → p.1 ≤ 4095 ∧ p.2 ≤ 4095 := by
    rintro p hp
    cases hp
    exact ⟨hraw, hcode⟩
  clear_value shorts
  split
  · rename_i hclose
    have hratio : shorts * 100 / c.cfg.window ≤ 100 := shortRatio_le (by omega) (by omega)
    refine ⟨h16, h256, hmod, hth, hr1, hr2, hgain, Nat.lt_of_lt_of_le (Nat.succ_pos 15) h16, Nat.le_refl 0,
      Nat.max_le.mpr ⟨hmax, hratio⟩, Nat.le_trans (Nat.min_le_left _ _) hmin, fun r hr => ?_, hl⟩
    cases hr
    exact hratio
  · rename_i hopen
    exact ⟨h16, h256, hmod, hth, hr1, hr2, hgain, Nat.lt_of_not_le hopen, hs, hmax, hmin, hlast, hl⟩

theorem State.keeps_scanEnds (s : State) (st : St) {raw : Nat} (hraw : raw ≤ 4095) : s.Keeps (s.scanEnds st raw) := by
  unfold State.scanEnds
  extract_lets c c1 s1
  have h1 : s.Keeps s1 := .onChannel (.refl s) fun h => GapChannel.inRange_sample h hraw
  split
  · split
    · exact .onWorks h1 (.alarmRise (.refl _))
    · exact h1
  · exact .refl s

theorem State.keeps_singleEnds (s : State) (st : St) (raw : Nat) : s.Keeps (s.singleEnds st raw) := by
  unfold State.singleEnds
  split
  · exact .refl s
  · rename_i g hg
    refine .rest rfl (fun ⟨hm, hr, he⟩ => ⟨hm, ?_, he⟩) id
    simp only [State.reserved, hg, Option.isSome_some, Option.isSome_none, if_true, Bool.false_eq_true, if_false,
      List.length_append, List.length_singleton] at hr ⊢
    omega

theorem State.keeps_takeConversion (s : State) {raw : Nat} (hraw : raw ≤ 4095) : s.Keeps (s.takeConversion raw) := by
  unfold State.takeConversion
  split
  · exact .rest rfl id fun ⟨_, hc, hs, hw⟩ => ⟨hraw, hc, hs, hw⟩
  · exact State.keeps_singleEnds s _ _
  · exact State.keeps_scanEnds s _ hraw

/-- The choice of a conversion leaves what is outstanding, the offset and the channels. -/
theorem GapMonitor.choose_rest (g : GapMonitor) :
    g.choose.outstanding = g.outstanding ∧ g.choose.offset = g.offset ∧ g.choose.channels = g.channels := by
  unfold GapMonitor.choose
  split <;> exact ⟨rfl, rfl, rfl⟩

theorem State.keeps_choose (s : State) : s.Keeps { s with gap := s.gap.choose } := by
  obtain ⟨ho, hoff, hch⟩ := GapMonitor.choose_rest s.gap
  refine .rest rfl ?_ ?_
  · simp only [State.linkOk, State.reserved, ho]
    exact id
  · simp only [State.gapInRange, hoff, hch]
    exact id

/-! ## The PART, NOTICE, SENSE and STORE units (chapters 10 and 11) -/

theorem ruleKeeps_summary : ruleKeeps summary := fun _ _ s hr => .answer (.refl s) hr

theorem ruleKeeps_timeSet : ruleKeeps timeSet :=
  fun _ _ s hr => .answer (.onWorks (.refl s) (Works.keeps_setTime _ _)) hr

theorem ruleKeeps_timeRead : ruleKeeps timeRead := fun _ _ s hr => .answer (.refl s) hr

theorem State.Keeps.onNotices {g : Notices → Notices} (h : s.Keeps t) : s.Keeps (t.onNotices g) :=
  h.onWorks (Works.KeepsAt.parts (.refl _) rfl rfl rfl)

theorem ruleKeeps_noticeEnable : ruleKeeps noticeEnable := fun _ _ s hr => .answer (.onNotices (.refl s)) hr

theorem ruleKeeps_noticeRead : ruleKeeps noticeRead := fun _ _ s hr => .answer (.refl s) hr

theorem ruleKeeps_noticeClear : ruleKeeps noticeClear := fun _ _ s hr => .answer (.onNotices (.refl s)) hr

theorem ruleKeeps_senseConfig : ruleKeeps senseConfig := by
  intro a f s hr
  have hs : s.Keeps s := .refl s
  unfold senseConfig
  split
  · split
    · exact hs.answer hr
    · exact .answer (t := s.setLine _ _ _) (.rest rfl id id) hr
  · exact hs.answer hr

theorem ruleKeeps_senseRead : ruleKeeps senseRead := fun _ _ s hr => .answer (.refl s) hr

theorem ruleKeeps_storeRead : ruleKeeps storeRead := by
  intro a f s hr
  unfold storeRead
  split
  · exact .answer (.refl s) hr
  · exact .answer (.refl s) hr

/-- Four gains that are not above 4095. -/
theorem PerStation.get_le {g : PerStation Nat} {n : Nat} (h0 : g.s0 ≤ n) (h1 : g.s1 ≤ n) (h2 : g.s2 ≤ n) (h3 : g.s3 ≤ n)
    (st : St) : g.get st ≤ n := by
  match st with
  | 0 => exact h0
  | 1 => exact h1
  | 2 => exact h2
  | 3 => exact h3

theorem gainsOf_le {a : List Byte} {g : PerStation Nat} (h : gainsOf a = some g) (st : St) : g.get st ≤ 4095 := by
  unfold gainsOf at h
  extract_lets gain at h
  split at h
  · rename_i hg
    obtain ⟨h0, h1, h2, h3⟩ := hg
    cases h
    exact PerStation.get_le h0 h1 h2 h3 st
  · cases h

theorem ruleKeeps_storeWrite : ruleKeeps storeWrite := by
  intro a f s hr
  have hs : s.Keeps s := .refl s
  unfold storeWrite
  split
  · exact hs.answer hr
  · rename_i hw
    split
    · exact hs.answer hr
    · split
      · exact hs.answer hr
      · rename_i g hg
        refine .rest rfl (fun ⟨hm, _, he⟩ => ⟨hm, ?_, he⟩) fun ⟨ho, hc, hg', _⟩ => ⟨ho, hc, hg', fun k hk st => ?_⟩
        · have hroom : s.replies.length + s.reserved < Config.replyPlaces := of_decide_eq_true hr
          simp only [State.reserved, hw, Option.isSome_some, if_true, Bool.false_eq_true, if_false] at hroom ⊢
          omega
        · cases hk
          exact gainsOf_le hg st

theorem State.keeps_writeEnds (s : State) : s.Keeps s.writeEnds := by
  unfold State.writeEnds
  split
  · exact .refl s
  · rename_i k hk
    refine .of_works (Works.KeepsAt.raise (.refl _)) (fun ⟨hm, hr, he⟩ => ⟨hm, ?_, he⟩)
      fun ⟨ho, hc, _, hw⟩ => ⟨ho, hc, hw k hk, fun j hj => nomatch hj⟩
    simp only [State.reserved, hk, Option.isSome_some, Option.isSome_none, if_true, Bool.false_eq_true, if_false,
      List.length_append, List.length_singleton] at hr ⊢
    omega

theorem State.keeps_sample (s : State) (st : St) (k : Line) (level : Level) : s.Keeps (s.sample st k level) := by
  unfold State.sample
  extract_lets l s1
  have h1 : s.Keeps s1 := .rest rfl id id
  split
  · exact h1.onWorks (.edge (.refl _))
  · exact h1

/-! ## PART RESET -/

theorem Station.reset_laws : Station.reset.ok ∧ Station.reset.holdLaw ∧ Station.reset.tc.episodeLaw := by
  refine ⟨⟨Nat.zero_le _, Nat.zero_le _, Nat.zero_le _, pairOk_nil⟩, ⟨fun h => (nomatch h), fun h => absurd rfl h⟩, ?_⟩
  exact ⟨fun h => Bool.noConfusion h.1, fun e he => nomatch he⟩

/-- A channel after a reset is in range with any gain of 12 bits (R165). -/
theorem GapChannel.inRange_reset {gain : Nat} (h : gain ≤ 4095) : (GapChannel.reset gain).inRange := by
  simp [GapChannel.inRange, GapChannel.reset, h]

section

variable {pending : List Instr} {lines : PerStation Lines} {store : CalStore} {n : Nat}

theorem State.afterReset_good : (State.afterReset pending lines store n).good := by
  refine ⟨⟨Nat.zero_le _, Nat.zero_le 16, Nat.zero_le _⟩, fun st => ?_⟩
  rw [State.afterReset_station]
  exact Station.reset_laws.1

theorem State.afterReset_holdLaw : (State.afterReset pending lines store n).holdLaw := fun st => by
  rw [State.afterReset_station]
  exact Station.reset_laws.2.1

theorem State.afterReset_episodeLaw : (State.afterReset pending lines store n).episodeLaw := fun st => by
  rw [State.afterReset_station]
  exact Station.reset_laws.2.2

theorem State.afterReset_tableLaw : (State.afterReset pending lines store n).tableLaw :=
  ⟨rfl, fun _ hp => nomatch hp⟩

theorem State.afterReset_slotLaw : (State.afterReset pending lines store n).slotLaw := ⟨rfl, fun _ hp => nomatch hp⟩

theorem State.afterReset_kerfLaw : (State.afterReset pending lines store n).kerfLaw := fun _ hp => nomatch hp

/-- The gains of the channels after a reset are the store's, or 4095 each (R188). -/
theorem CalStore.resetGains_le (h : ∀ st, store.gains.get st ≤ 4095) (st : St) : store.resetGains.get st ≤ 4095 := by
  unfold CalStore.resetGains
  split
  · exact h st
  · exact PerStation.get_le (Nat.le_refl _) (Nat.le_refl _) (Nat.le_refl _) (Nat.le_refl _) st

theorem State.afterReset_gapInRange (h : ∀ st, store.gains.get st ≤ 4095) :
    (State.afterReset pending lines store n).gapInRange := by
  have hg := CalStore.resetGains_le h
  refine ⟨Nat.zero_le _, fun st => ?_, h, fun k hk => nomatch hk⟩
  match st with
  | 0 => exact GapChannel.inRange_reset (hg 0)
  | 1 => exact GapChannel.inRange_reset (hg 1)
  | 2 => exact GapChannel.inRange_reset (hg 2)
  | 3 => exact GapChannel.inRange_reset (hg 3)

/-- A state after a reset keeps every law, whatever came before, once its store's gains are in range. -/
theorem State.keeps_afterReset (h : s.gapInRange → ∀ st, store.gains.get st ≤ 4095) :
    s.Keeps (State.afterReset pending lines store n) where
  link _ := State.afterReset_good.1
  gap hs := State.afterReset_gapInRange (h hs)
  station st := by
    rw [State.afterReset_station]
    exact ⟨fun _ => Station.reset_laws.1, fun _ => Station.reset_laws.2.2, fun _ => Station.reset_laws.2.1.whenHeld⟩
  hold _ := State.afterReset_holdLaw
  table _ := State.afterReset_tableLaw
  kerf _ := State.afterReset_kerfLaw
  slot _ _ := State.afterReset_slotLaw

end

/-! ## Commands and steps -/

/-- What a command answers keeps the laws. -/
def State.KeptBy (s : State) (o : Host.Outcome State Fault Refusal) : Prop := ∀ t, o = .next t → s.Keeps t

theorem State.Keeps.finish (h : s.Keeps t) : s.KeptBy t.finish := by
  intro u hu
  cases hu
  exact h.trans (State.keeps_upstream t)

theorem State.keptBy_serve (s : State) {u : MgmtUnit} {code : Byte} {len : Nat}
    {rule : Authority → MgmtFrame → State → State} (hrule : ruleKeeps rule) :
    s.KeptBy (s.serve u code len rule).finish := (State.keeps_serve s hrule).finish

theorem State.keptBy_report (s : State) (st : St) (r : DriveReport) : s.KeptBy (s.report st r) :=
  (State.Keeps.onWorks (.refl s) (.portMessage (.refl _))).finish

theorem State.keptBy_partReset (s : State) : s.KeptBy (execPartReset s) := by
  intro t ht
  unfold execPartReset at ht
  extract_lets n torn at ht
  split at ht
  · cases ht
    exact State.keeps_afterReset fun h => h.2.2.1
  · cases ht
    refine State.keeps_afterReset fun _ st => ?_
    rw [PerStation.get_ofStations]
    exact Nat.le_of_lt_succ (Config.tornGain n st).isLt

theorem State.keptBy_portLinkDown (s : State) (st : St) (message : Option (List Byte)) :
    s.KeptBy (execPortLinkDown st message s) := by
  unfold execPortLinkDown
  split
  · exact State.keptBy_report s st _
  · exact (State.Keeps.onWorks (.refl s) (.portDown (.refl _))).finish

theorem State.keptBy_linkError (s : State) (bytes : List Byte) : s.KeptBy (execLinkError bytes s) := by
  unfold execLinkError
  split
  · exact (State.keeps_linkError s).finish
  · exact (State.keeps_takeFrame s _).finish

/-- Every command keeps the laws. -/
theorem State.keptBy_exec (s : State) (i : Instr) : s.KeptBy (exec i s) := by
  cases i with
  | partReset => exact State.keptBy_partReset s
  | pathFrame f => exact (State.keeps_takePath s f).finish
  | mgmtFrame f => exact (State.keeps_takeMgmt s f).finish
  | linkError bytes => exact State.keptBy_linkError s bytes
  | unknownUnitRequest => exact (State.keeps_serveUnknownUnit s).finish
  | summary => exact State.keptBy_serve s ruleKeeps_summary
  | timeSet => exact State.keptBy_serve s ruleKeeps_timeSet
  | timeRead => exact State.keptBy_serve s ruleKeeps_timeRead
  | beginProgram => exact State.keptBy_serve s stationRuleKeeps_beginProgram.request
  | hold => exact State.keptBy_serve s judgeKeeps_hold.work.request
  | resume => exact State.keptBy_serve s judgeKeeps_resume.work.request
  | confirm => exact State.keptBy_serve s judgeKeeps_confirm.work.request
  | skipContour => exact State.keptBy_serve s stationRuleKeeps_skipContour.request
  | retry => exact State.keptBy_serve s judgeKeeps_retry.work.request
  | abort => exact State.keptBy_serve s judgeKeeps_abort.work.request
  | status => exact State.keptBy_serve s stationRuleKeeps_statusOf.request
  | setStation => exact State.keptBy_serve s ruleKeeps_setStation
  | defineContour => exact State.keptBy_serve s ruleKeeps_defineContour
  | deleteContour => exact State.keptBy_serve s ruleKeeps_deleteContour
  | readContour => exact State.keptBy_serve s ruleKeeps_readContour
  | setPlan => exact State.keptBy_serve s ruleKeeps_setPlan
  | readPlan => exact State.keptBy_serve s ruleKeeps_readPlan
  | kerfStatus => exact State.keptBy_serve s ruleKeeps_kerfStatus
  | gapConfig => exact State.keptBy_serve s ruleKeeps_gapConfig
  | gapSingle => exact State.keptBy_serve s ruleKeeps_gapSingle
  | gapRead => exact State.keptBy_serve s ruleKeeps_gapRead
  | gapClear => exact State.keptBy_serve s ruleKeeps_gapClear
  | gapResetExtremes => exact State.keptBy_serve s ruleKeeps_gapResetExtremes
  | senseConfig => exact State.keptBy_serve s ruleKeeps_senseConfig
  | senseRead => exact State.keptBy_serve s ruleKeeps_senseRead
  | noticeEnable => exact State.keptBy_serve s ruleKeeps_noticeEnable
  | noticeRead => exact State.keptBy_serve s ruleKeeps_noticeRead
  | noticeClear => exact State.keptBy_serve s ruleKeeps_noticeClear
  | storeRead => exact State.keptBy_serve s ruleKeeps_storeRead
  | storeWrite => exact State.keptBy_serve s ruleKeeps_storeWrite
  | storeWriteDone => exact (State.keeps_writeEnds s).finish
  | conversionEnd raw =>
    exact ((State.keeps_takeConversion s (Nat.le_of_lt_succ raw.isLt)).trans (State.keeps_choose _)).finish
  | breakEdge st => exact (State.keeps_sample s st .breakLine _).finish
  | catchEdge st => exact (State.keeps_sample s st .catchLine _).finish
  | guardEdge st => exact (State.keeps_sample s st .guardLine _).finish
  | senseLevelChange st line level => exact (State.keeps_sample s st line level).finish
  | done st issue => exact State.keptBy_report s st _
  | stopped st issue progress => exact State.keptBy_report s st _
  | fault st issue progress code => exact State.keptBy_report s st _
  | cut st => exact State.keptBy_report s st _
  | probe st result => exact State.keptBy_report s st _
  | probeEnd st => exact State.keptBy_report s st _
  | threaded st => exact State.keptBy_report s st _
  | abandoned st => exact State.keptBy_report s st _
  | portLinkDown st message => exact State.keptBy_portLinkDown s st message
  | catchWaitExpiry st => exact (State.Keeps.onWorks (.refl s) (.catchExpiry (.refl _))).finish
  | upstreamFrameSent => exact (State.Keeps.rest (s := s) (t := { s with lane := none }) rfl id id).finish
  | unknownRequest unit => exact (State.keeps_serveUnknown s unit).finish

/-- A microsecond keeps the laws. -/
theorem State.keeps_tick (s : State) : s.Keeps s.tick :=
  (State.Keeps.onWorks (.refl s) (.settle (Works.KeepsAt.parts (v := s.works)
    (u := { s.works with time := s.works.time + 1 }) (.refl _) rfl rfl rfl))).trans (State.keeps_upstream _)

/-- Every step keeps the laws. -/
theorem State.keeps_step (h : step s = .next t) : s.Keeps t := by
  unfold step at h
  split at h
  · cases h
    exact State.keeps_tick s
  · rename_i c rest _
    have hq : s.Keeps { s with pending := rest } := .rest rfl id id
    exact hq.trans (State.keptBy_exec _ c t h)

end Sys2Proof.Machine
end

section
/-! PROOFS. The statements about the laws that hold at reset and that every step keeps. -/

namespace Sys2Proof.Machine

/-- Settles O57: the state after the first reset is a state after a reset, whose store is full. -/
theorem resetKeepsTheLaws : Obligations.ResetKeepsTheLaws := by
  unfold Obligations.ResetKeepsTheLaws
  exact ⟨State.afterReset_good, State.afterReset_holdLaw, State.afterReset_episodeLaw,
    State.afterReset_gapInRange (PerStation.get_le (Nat.le_refl _) (Nat.le_refl _) (Nat.le_refl _) (Nat.le_refl _)),
    State.afterReset_tableLaw, State.afterReset_slotLaw, State.afterReset_kerfLaw, rfl⟩

/-- Settles O58. -/
theorem stepKeepsTheBounds : Obligations.StepKeepsTheBounds := by
  unfold Obligations.StepKeepsTheBounds
  intro s s' ⟨hlink, hstations⟩ hstep
  have hk := State.keeps_step hstep
  exact ⟨hk.link hlink, fun st => (hk.station st).ok (hstations st)⟩

/-- Settles O59. -/
theorem stepKeepsHoldAndEpisodeLaws : Obligations.StepKeepsHoldAndEpisodeLaws := by
  unfold Obligations.StepKeepsHoldAndEpisodeLaws
  intro s s' hhold hepisode hstep
  have hk := State.keeps_step hstep
  exact ⟨hk.hold hhold, fun st => (hk.station st).episode (hepisode st)⟩

/-- Settles O60. -/
theorem stepKeepsRangesAndTable : Obligations.StepKeepsRangesAndTable := by
  unfold Obligations.StepKeepsRangesAndTable
  intro s s' hstep
  have hk := State.keeps_step hstep
  exact ⟨hk.gap, hk.table, hk.kerf, hk.slot⟩

end Sys2Proof.Machine
end

section
/-! PROOFS. The queue of commands, PART RESET's calibration store, and how frames join the management buffer and leave it
(R178, R179, R184, R188, R189). -/

namespace Sys2Proof.Machine

/-! ## One step (R187) -/

/-- A full time base wraps to zero. -/
theorem time_succ_of_full {t : Time} (h : t.toNat = 4294967295) : (t + 1).toNat = 0 := by
  simp [BitVec.toNat_add, h]

/-- A time base that is not full counts up by one. -/
theorem time_succ_of_not_full {t : Time} (h : t.toNat ≠ 4294967295) : (t + 1).toNat = t.toNat + 1 := by
  have bound := t.isLt
  have one : (1 : Time).toNat = 1 := rfl
  rw [BitVec.toNat_add, one]
  omega

/-- Settles O1: the two cases of a step, and the count of the time base. -/
theorem stepRunsTheFrontCommand : Obligations.StepRunsTheFrontCommand := by
  unfold Obligations.StepRunsTheFrontCommand
  refine ⟨fun _ _ _ => rfl, fun s hempty => ⟨?tick, time_succ_of_full, time_succ_of_not_full⟩⟩
  case tick => simp only [step, hempty, State.tick, State.onWorks]

/-! ## The calibration store at PART RESET (R184, R188, R189) -/

/-- The store PART RESET finds: as it stands, or torn when a write was in progress. -/
theorem exec_partReset_store (s : State) :
    ∃ store n, exec .partReset s = .next (State.afterReset s.pending s.lines store n)
      ∧ (s.store.writing = none → store = s.store) ∧ (s.store.writing ≠ none → store.valid = false) := by
  simp only [exec, execPartReset]
  split
  case h_1 h => exact ⟨_, _, rfl, fun _ => rfl, fun busy => absurd h busy⟩
  case h_2 h => exact ⟨_, _, rfl, fun idle => absurd (h.symm.trans idle) nofun, fun _ => rfl⟩

/-- A channel takes the store's gain, or the full gain from an invalid store. -/
theorem State.afterReset_channel (pending : List Instr) (lines : PerStation Lines) (store : CalStore) (n : Nat) (st : St) :
    (State.afterReset pending lines store n).gap.channels.get st
      = GapChannel.reset (if store.valid then store.gains.get st else 4095) := by
  have gain : store.resetGains.get st = if store.valid then store.gains.get st else 4095 := by
    unfold CalStore.resetGains
    split
    · rfl
    · match st with
      | 0 | 1 | 2 | 3 => rfl
  rw [← gain]
  match st with
  | 0 | 1 | 2 | 3 => rfl

/-- Settles O3: the store that PART RESET finds gives the gains and decides STORE_INVALID. -/
theorem partResetReadsTheCalibrationStore : Obligations.PartResetReadsTheCalibrationStore := by
  unfold Obligations.PartResetReadsTheCalibrationStore
  intro s
  obtain ⟨store, n, hexec, idle, busy⟩ := exec_partReset_store s
  refine ⟨State.afterReset s.pending s.lines store n, hexec, fun h => ?_, busy, rfl, fun valid => ?_, fun invalid => ?_,
    State.afterReset_channel _ _ _ _⟩
  · rw [← idle h]
    exact ⟨rfl, rfl⟩
  · have hv : store.valid = true := valid
    simp [State.afterReset, hv]
  · have hv : store.valid = false := invalid
    simp [State.afterReset, hv, bit16]

/-! ## The management buffer (R178) -/

/-- Settles O5: a frame joins the buffer unless one of the three conditions makes it a link error. -/
theorem managementFramesJoinTheBuffer : Obligations.ManagementFramesJoinTheBuffer := by
  unfold Obligations.ManagementFramesJoinTheBuffer
  intro f s
  refine ⟨fun h0 h255 room => ?_, fun refused => ?_⟩
  · have joins : ¬(f.tn = 0 ∨ f.tn = 255 ∨ Config.mgmtBufferSize ≤ s.mgmt.length) := by
      simp only [h0, h255, Config.mgmtBufferSize, false_or]
      exact Nat.not_le_of_lt room
    exact congrArg (fun t : State => t.finish) (if_neg joins)
  · exact congrArg (fun t : State => t.finish) (if_pos refused)

/-! ## Taking a request (R179) -/

/-- The command of a request serves the request's unit, by some rule of the unit. -/
theorem exec_of_requestOf {c : Instr} {u : MgmtUnit} {code : Byte} {len : Nat} (h : c.requestOf = some (u, code, len)) :
    ∃ rule, ∀ s, exec c s = .next (s.serve u code len rule).upstream := by
  cases c <;> cases h <;> exact ⟨_, fun _ => rfl⟩

section

variable {s : State} {u : MgmtUnit} {code : Byte} {len : Nat} {f : MgmtFrame} {rest : List MgmtFrame}
  (rule : Authority → MgmtFrame → State → State)

/-- No frame of the unit waits: the unit finds nothing. -/
theorem State.oldestOf_of_no_frame (h : ∀ g ∈ s.mgmt, g.unit ≠ u.code) : s.oldestOf u = none :=
  takeOldest_none _ _ fun g hg => by simpa using h g hg

theorem State.replyRoom_iff : s.replyRoom = true ↔ s.replies.length + s.reserved < 16 := decide_eq_true_iff

/-- A unit whose oldest frame is another request, or with no room for the reply, takes nothing. -/
theorem State.serve_of_other (ho : s.oldest u f rest) (h : f.request ≠ code ∨ 16 ≤ s.replies.length + s.reserved) :
    s.serve u code len rule = s := by
  have refused : ¬(f.request = code ∧ s.replyRoom = true) := by
    rw [State.replyRoom_iff]
    rintro ⟨hc, hr⟩
    exact h.elim (fun other => other hc) (fun full => Nat.not_lt_of_le full hr)
  simp only [State.serve, State.oldestOf_of_oldest ho, if_neg refused]

/-- No authority has a code above 1. -/
theorem authorityOf_eq_none {b : Byte} (h : 1 < b.toNat) : authorityOf b = none := by
  unfold authorityOf
  split
  · omega
  · omega
  · rfl

/-- A request of no authority or of another length is answered BADREQ by the dispatch. -/
theorem State.dispatch_of_bad (t : State) (h : 1 < f.authority.toNat ∨ f.args.length ≠ len) :
    t.dispatch f len rule = t.answer f .badReq .empty := by
  unfold State.dispatch
  split
  · rfl
  · rename_i a ha
    refine if_neg fun hl => h.elim (fun big => ?_) fun other => other hl
    rw [authorityOf_eq_none big] at ha
    cases ha

/-- A request taken with no authority or with another length is answered BADREQ. -/
theorem State.serve_of_bad (ho : s.oldest u f rest) (hc : f.request = code) (hr : s.replies.length + s.reserved < 16)
    (h : 1 < f.authority.toNat ∨ f.args.length ≠ len) :
    s.serve u code len rule = ({ s with mgmt := rest } : State).answer f .badReq .empty := by
  simp only [State.serve, State.oldestOf_of_oldest ho, if_pos (And.intro hc (State.replyRoom_iff.mpr hr)),
    State.dispatch_of_bad rule _ h]

end

/-- Settles O6: every request is served by its unit, and the three outcomes of serving are those of the dispatch. -/
theorem requestsAreTakenInOrderAndChecked : Obligations.RequestsAreTakenInOrderAndChecked := by
  unfold Obligations.RequestsAreTakenInOrderAndChecked
  intro c u code len s hreq
  obtain ⟨rule, hexec⟩ := exec_of_requestOf hreq
  rw [hexec]
  refine ⟨fun none => ?_, fun f rest ho => ⟨fun other => ?_, fun hc hr bad => ?_⟩⟩
  · rw [State.serve_of_none (State.oldestOf_of_no_frame none)]
  · rw [State.serve_of_other rule ho other]
  · rw [State.serve_of_bad rule ho hc hr bad]

/-- Settles O7: the unit's oldest frame, or the oldest frame of no unit, is the one answered. -/
theorem unknownRequestsAreAnsweredBadReq : Obligations.UnknownRequestsAreAnsweredBadReq := by
  unfold Obligations.UnknownRequestsAreAnsweredBadReq
  intro s room
  have hr := State.replyRoom_iff.mpr room
  refine ⟨fun u f rest ho hcode => ?_, fun before f after hm hb hf => ?_, fun _ _ _ => rfl⟩
  · simp only [exec, execUnknownRequest, State.serveUnknown, State.oldestOf_of_oldest ho, if_pos (And.intro hcode hr),
      State.finish]
  · have taken : takeOldest (fun g => decide (8 < g.unit.toNat)) s.mgmt = some (f, before ++ after) := by
      rw [hm]
      exact takeOldest_append _ _ _ _ (fun g hg => decide_eq_false (Nat.not_lt_of_le (hb g hg))) (decide_eq_true hf)
    simp only [exec, execUnknownUnitRequest, State.serveUnknownUnit, taken, if_pos hr, State.finish]

end Sys2Proof.Machine
end

section
/-! PROOFS. The upstream arbiter's choice (R183, R185) and the report queues (R46, R48, R78, R182). -/

namespace Sys2Proof.Machine

/-! ## The arbiter's choice (R183, R185) -/

/-- The rotation after a station. -/
theorem rotation_eq (k : St) : rotation k = [k + 1, k + 2, k + 3, k] := by
  match k with
  | 0 | 1 | 2 | 3 => rfl

/-- The head of a station's report queue, with what stands behind it. -/
def State.headReport (s : State) (st : St) : Option (St × Report × List Report) :=
  match (s.works.station st).reports with
  | [] => none
  | r :: rest => some (st, r, rest)

/-- A chosen report starts to be sent. -/
def State.startReport (s : State) : Option (St × Report × List Report) → State
  | none => s
  | some (st, r, rest) =>
    { s with
      lane := some (.report st r), lastServed := st
      works := s.works.upd st fun x => { x with reports := rest } }

/-- The first head in rotation is the one sent. -/
theorem State.sendReport_eq (s : State) :
    s.sendReport = s.startReport ((rotation s.lastServed).findSome? s.headReport) := rfl

section

variable {s : State}

theorem State.headReport_of_empty {st : St} (h : (s.works.station st).reports = []) : s.headReport st = none := by
  simp only [State.headReport, h]

theorem State.headReport_of_cons {st : St} {r : Report} {rest : List Report}
    (h : (s.works.station st).reports = r :: rest) : s.headReport st = some (st, r, rest) := by
  simp only [State.headReport, h]

/-- The first station in rotation with a report waiting is served. -/
theorem State.sendReport_of_ready {before after : List St} {st : St} {r : Report} {rest : List Report}
    (horder : rotation s.lastServed = before ++ st :: after) (hb : ∀ b ∈ before, (s.works.station b).reports = [])
    (hr : (s.works.station st).reports = r :: rest) :
    s.sendReport =
      { s with
        lane := some (.report st r), lastServed := st
        works := s.works.upd st fun x => { x with reports := rest } } := by
  have skipped : before.findSome? s.headReport = none :=
    List.findSome?_eq_none_iff.mpr fun b hmem => State.headReport_of_empty (hb b hmem)
  rw [State.sendReport_eq, horder, List.findSome?_append, skipped, Option.none_or, List.findSome?_cons,
    State.headReport_of_cons hr]
  rfl

/-- With every report queue empty nothing is sent. -/
theorem State.sendReport_of_empty (h : ∀ st, (s.works.station st).reports = []) : s.sendReport = s := by
  have none_ready : (rotation s.lastServed).findSome? s.headReport = none :=
    List.findSome?_eq_none_iff.mpr fun b _ => State.headReport_of_empty (h b)
  rw [State.sendReport_eq, none_ready]
  rfl

/-- With no reply and no notice to carry, the arbiter withdraws the notice and goes on to the reports. -/
theorem State.upstream_of_quiet (hl : s.lane = none) (hr : s.replies = [])
    (h : s.works.notices.pending = false ∨ s.works.notices.flags &&& s.works.notices.enables = 0) :
    s.upstream =
      (s.onWorks fun w => { w with notices := { s.works.notices with pending := false } }).sendReport := by
  simp only [State.upstream, hl, hr]
  split
  case isTrue hp =>
    obtain idle | clear := h
    · exact absurd (hp.symm.trans idle) nofun
    · simp only [State.sendNotice, if_pos clear]
  case isFalse hp =>
    have same : ({ s.works.notices with pending := false } : Notices) = s.works.notices := by
      rw [← Bool.not_eq_true _ |>.mp hp]
    rw [same]
    rfl

/-- A pending notice with something to carry is sent. -/
theorem State.upstream_of_notice (hl : s.lane = none) (hr : s.replies = []) (hp : s.works.notices.pending = true)
    (h : s.works.notices.flags &&& s.works.notices.enables ≠ 0) :
    s.upstream =
      { s with
        lane := some (.notice (s.works.notices.flags &&& s.works.notices.enables) s.works.time)
        works := { s.works with notices := { s.works.notices with pending := false } } } := by
  simp only [State.upstream, hl, hr, hp, if_true, State.sendNotice, if_neg h, State.onWorks]

end

/-- Settles O8: the lane is freed, and the arbiter's choice is one of replies, notice, reports and nothing. -/
theorem upstreamLaneServesRepliesNoticesReports : Obligations.UpstreamLaneServesRepliesNoticesReports := by
  unfold Obligations.UpstreamLaneServesRepliesNoticesReports
  refine ⟨rotation_eq, fun s x => State.upstream_of_lane, ?choice⟩
  intro s u quiet
  refine ⟨fun r rest hr => ?reply, fun hr hp hm => ?notice, fun hr hq => ⟨fun before st after r rest horder hb hrep => ?report, fun hempty => ?nothing⟩⟩
  all_goals refine congrArg Host.Outcome.next ?_
  case reply => exact State.upstream_of_reply (s := { s with lane := none }) rfl hr
  case notice => exact State.upstream_of_notice (s := { s with lane := none }) rfl hr hp hm
  case report =>
    exact (State.upstream_of_quiet (s := { s with lane := none }) rfl hr hq).trans
      (State.sendReport_of_ready horder hb hrep)
  case nothing =>
    exact (State.upstream_of_quiet (s := { s with lane := none }) rfl hr hq).trans (State.sendReport_of_empty hempty)

/-! ## The report queues (R46, R48, R78, R182) -/

/-- The reports R46 changes in place are the PROGRESS reports of the present program. -/
theorem Report.isPresentProgress_iff (r : Report) :
    r.isPresentProgress = true ↔ ∃ tag c n, r.body = .progress tag c n true := by
  unfold Report.isPresentProgress
  split
  case h_1 tag c n present hb => simp [hb]
  case h_2 other => exact iff_of_false nofun fun ⟨tag, c, n, hb⟩ => other _ _ _ _ hb

/-- Refreshing a PROGRESS of the present program keeps its tag and its stamp. -/
theorem Report.refresh_of_present {r : Report} {tag : Byte} {c' : Seq} {n' : Nat} (c : Seq) (n : Nat)
    (h : r.body = .progress tag c' n' true) :
    Report.refresh c n r = { body := .progress tag c n true, stamp := r.stamp } := by
  simp only [Report.refresh, h]

/-- Refreshing leaves any other report as it is. -/
theorem Report.refresh_of_other {r : Report} (c : Seq) (n : Nat) (h : r.isPresentProgress = false) :
    Report.refresh c n r = r := by
  unfold Report.refresh
  split
  case h_1 tag c' n' hb =>
    have present := r.isPresentProgress_iff.mpr ⟨_, _, _, hb⟩
    exact absurd (h.symm.trans present) nofun
  case h_2 => rfl

section

variable {w : Works} {st : St} {p : Program}

/-- A PROGRESS waiting to be sent is brought up to date in place. -/
theorem Works.progressUpdate_of_waiting (hp : (w.station st).adm.program = some p)
    (h : ∃ r ∈ (w.station st).reports, r.isPresentProgress = true) :
    w.progressUpdate st = w.upd st fun x =>
      { x with reports := x.reports.map (Report.refresh p.consumed (128 - x.adm.queue.length)) } := by
  simp only [Works.progressUpdate, hp, if_pos (List.any_eq_true.mpr h)]
  rfl

/-- With none waiting a new PROGRESS is reported. -/
theorem Works.progressUpdate_of_none_waiting (hp : (w.station st).adm.program = some p)
    (h : ∀ r ∈ (w.station st).reports, r.isPresentProgress = false) :
    w.progressUpdate st = w.report st (.progress p.tag p.consumed (128 - (w.station st).adm.queue.length) true) := by
  have none_waiting : ¬(w.station st).reports.any Report.isPresentProgress = true := by
    simpa using h
  simp only [Works.progressUpdate, hp, if_neg none_waiting]
  rfl

/-- With no program there is no progress to report. -/
theorem Works.progressUpdate_of_no_program (hp : (w.station st).adm.program = none) : w.progressUpdate st = w := by
  simp only [Works.progressUpdate, hp]

end

/-- Settles O9: the three ways a queue changes, and the marks, which are reports too. -/
theorem reportsJoinTheirQueueOrAreCounted : Obligations.ReportsJoinTheirQueueOrAreCounted := by
  unfold Obligations.ReportsJoinTheirQueueOrAreCounted
  exact fun w st b => ⟨Works.report_of_room b, fun full => Works.report_of_full b (Nat.not_lt_of_le full),
    fun p hp => ⟨Works.progressUpdate_of_waiting hp, Works.progressUpdate_of_none_waiting hp⟩,
    Works.progressUpdate_of_no_program, Report.isPresentProgress_iff,
    fun c n r => ⟨fun tag c' n' => Report.refresh_of_present c n, Report.refresh_of_other c n⟩,
    fun m ms o => ⟨rfl, rfl, rfl, rfl, rfl⟩⟩

end Sys2Proof.Machine
end

section
/-! PROOFS. The frame check (R192) and the round trip of downstream frames through their bytes (12.1 to 12.3). -/

namespace Sys2Proof.Machine

/-! ## The envelope (R192) -/

/-- What the check is computed over. -/
def checked (content : List Byte) : List Byte := b1 content.length ++ content

theorem enveloped_eq (content : List Byte) :
    enveloped content = checked content ++ checkBytes (frameCheck (checked content)) := rfl

theorem checkBytes_length (c : BitVec 16) : (checkBytes c).length = 2 := rfl

theorem checked_length (content : List Byte) : (checked content).length = content.length + 1 :=
  List.length_cons

theorem enveloped_length (content : List Byte) : (enveloped content).length = content.length + 3 := by
  simp only [enveloped_eq, List.length_append, checkBytes_length, checked_length]

/-- The check stands behind what it is computed over. -/
theorem enveloped_split (content : List Byte) : (enveloped content).length - 2 = (checked content).length := by
  rw [enveloped_length, checked_length]
  rfl

theorem enveloped_take (content : List Byte) :
    (enveloped content).take ((enveloped content).length - 2) = checked content := by
  rw [enveloped_split, enveloped_eq, List.take_left]

theorem enveloped_drop (content : List Byte) :
    (enveloped content).drop ((enveloped content).length - 2) = checkBytes (frameCheck (checked content)) := by
  rw [enveloped_split, enveloped_eq, List.drop_left]

/-- An enveloped content ends with the check of what stands before it. -/
theorem enveloped_check (content : List Byte) :
    (enveloped content).drop ((enveloped content).length - 2)
      = checkBytes (frameCheck ((enveloped content).take ((enveloped content).length - 2))) := by
  rw [enveloped_drop, enveloped_take]

/-- Every upstream frame is some content in its envelope. -/
theorem UpFrame.bytes_enveloped (u : UpFrame) : ∃ content, u.bytes = enveloped content := by
  cases u <;> exact ⟨_, rfl⟩

/-- Flags above the four defined bits fail the field checks. -/
theorem PathFrame.fieldsOk_of_flags {f : PathFrame} (h : 16 ≤ f.flags.toNat) : f.fieldsOk = false := by
  unfold PathFrame.fieldsOk
  split
  · rfl
  · simp [Nat.not_lt_of_le h]

/-- The check of the nine digits. -/
theorem frameCheck_digits : frameCheck [0x31, 0x32, 0x33, 0x34, 0x35, 0x36, 0x37, 0x38, 0x39] = 0x29B1 := by
  simp [frameCheck, crcByte, crcBit]

/-- Settles O10: the fold of the check byte by byte, the check at the end of every envelope, and the tests of R177. -/
theorem frameCheckIsComputedBitByBit : Obligations.FrameCheckIsComputedBitByBit := by
  unfold Obligations.FrameCheckIsComputedBitByBit
  refine ⟨frameCheck_digits, rfl, fun bytes b => ?_, fun u => ?_, fun bytes bad => ?_, fun f => PathFrame.fieldsOk_of_flags⟩
  · exact List.foldl_append
  · obtain ⟨content, hu⟩ := u.bytes_enveloped
    rw [hu, enveloped_check]
  · rw [receiveFrame_eq_none_iff]
    exact bad.elim (fun check => .inr (.inr (.inl check))) (fun len => .inr (.inl len))

/-! ## Reading a frame back (12.1 to 12.3) -/

/-- An enveloped content of one byte or more, with no more than a length byte can count, is sound. -/
theorem sound_enveloped {content : List Byte} (h : content.length < 256) (hne : 0 < content.length) :
    sound (enveloped content) = true := by
  rw [sound_iff, enveloped_length]
  have count : (byteAt (enveloped content) 0).toNat = content.length := by
    have first : byteAt (enveloped content) 0 = BitVec.ofNat 8 (content.length / 256 ^ 0) := rfl
    rw [first, Nat.pow_zero, Nat.div_one, BitVec.toNat_ofNat, Nat.mod_eq_of_lt h]
  refine ⟨by omega, by omega, ?_⟩
  rw [← enveloped_length]
  exact enveloped_check content

/-- The content is what lies between the length byte and the check. -/
theorem payload_enveloped (content : List Byte) : payload (enveloped content) = content := by
  have behind : (enveloped content).drop 1 = content ++ checkBytes (frameCheck (checked content)) := rfl
  rw [payload, behind, enveloped_length, Nat.add_sub_cancel, List.take_left]

/-- A 2-byte word is read back from its bytes. -/
theorem word16_bytes (v : BitVec 16) : v.extractLsb' 8 8 ++ v.extractLsb' 0 8 = v := by
  ext i hi
  simp only [BitVec.getElem_append, BitVec.getElem_extractLsb']
  split
  · simp [BitVec.getLsbD_eq_getElem hi]
  · simp [show 8 + (i - 8) = i by omega, BitVec.getLsbD_eq_getElem hi]

/-- A 3-byte word is read back from its bytes. -/
theorem word24_bytes (v : BitVec 24) : v.extractLsb' 16 8 ++ v.extractLsb' 8 8 ++ v.extractLsb' 0 8 = v := by
  ext i hi
  simp only [BitVec.getElem_append, BitVec.getElem_extractLsb']
  split
  · simp [BitVec.getLsbD_eq_getElem hi]
  · split
    · simp [show 8 + (i - 8) = i by omega, BitVec.getLsbD_eq_getElem hi]
    · simp [show 16 + (i - 8 - 8) = i by omega, BitVec.getLsbD_eq_getElem hi]

/-- The body of a PATH frame, behind the class. -/
def PathFrame.body (f : PathFrame) : List Byte :=
  [f.station, f.tag] ++ w2 f.seq ++ [f.kind, f.flags, f.contour] ++ w2 f.ordinal ++ w3 f.length ++ [f.feed] ++ f.rest

/-- The body of a MGMT frame, behind the class. -/
def MgmtFrame.body (f : MgmtFrame) : List Byte := [f.authority, f.tn, f.unit, f.request] ++ f.args

theorem PathFrame.bytes_eq (f : PathFrame) : f.bytes = enveloped (0 :: f.body) := rfl

theorem MgmtFrame.bytes_eq (f : MgmtFrame) : f.bytes = enveloped (1 :: f.body) := rfl

theorem PathFrame.body_length (f : PathFrame) : f.body.length = f.rest.length + 13 := by
  simp only [PathFrame.body, w2, w3, List.length_append, List.length_cons, List.length_nil]
  omega

theorem MgmtFrame.body_length (f : MgmtFrame) : f.body.length = f.args.length + 4 := by
  simp only [MgmtFrame.body, List.length_append, List.length_cons, List.length_nil]
  omega

theorem pathOfBody_body (f : PathFrame) : pathOfBody f.body = f := by
  have fields : pathOfBody f.body =
      { f with
        seq := f.seq.extractLsb' 8 8 ++ f.seq.extractLsb' 0 8
        ordinal := f.ordinal.extractLsb' 8 8 ++ f.ordinal.extractLsb' 0 8
        length := f.length.extractLsb' 16 8 ++ f.length.extractLsb' 8 8 ++ f.length.extractLsb' 0 8 } := rfl
  rw [fields, word16_bytes, word16_bytes, word24_bytes]

theorem mgmtOfBody_body (f : MgmtFrame) : mgmtOfBody f.body = f := rfl

/-- A class and a body that fit a frame are read back as the frame they form. -/
theorem receiveFrame_enveloped (cls : Byte) {body : List Byte} (h : body.length ≤ 60) :
    receiveFrame (enveloped (cls :: body)) =
      if cls = 0 then if 13 ≤ body.length then some (.path (pathOfBody body)) else none
      else if cls = 1 then if 4 ≤ body.length then some (.mgmt (mgmtOfBody body)) else none
      else none := by
  have hlen : (cls :: body).length = body.length + 1 := rfl
  have hsound : sound (enveloped (cls :: body)) = true := sound_enveloped (by omega) (by omega)
  have hshort : decide ((enveloped (cls :: body)).length ≤ 64) = true := by
    rw [enveloped_length]
    exact decide_eq_true (by omega)
  simp only [receiveFrame, hsound, hshort, Bool.and_self, if_true, payload_enveloped]

/-- Settles O11: the envelope is sound, and the body of each class is read back field by field. -/
theorem framesAreReadBackFromTheirBytes : Obligations.FramesAreReadBackFromTheirBytes := by
  unfold Obligations.FramesAreReadBackFromTheirBytes
  refine ⟨fun f wf => ?path, fun f wf => ?mgmt⟩
  case path =>
    have short : f.rest.length ≤ 47 := of_decide_eq_true wf
    have hlen := f.body_length
    rw [PathFrame.bytes_eq, receiveFrame_enveloped 0 (by omega), if_pos rfl, if_pos (by omega), pathOfBody_body]
  case mgmt =>
    have short : f.args.length ≤ 56 := of_decide_eq_true wf
    have hlen := f.body_length
    rw [MgmtFrame.bytes_eq, receiveFrame_enveloped 1 (by omega), if_neg (by decide), if_pos rfl, if_pos (by omega),
      mgmtOfBody_body]

end Sys2Proof.Machine
end

section
/-! PROOFS. What a request of a station is answered in general, hold reasons, and the requests that read or load values,
BEGIN_PROGRAM, HOLD and SET_STATION (R36, R79, R109, R111, R144, R145, R149, R150, R187). -/

namespace Sys2Proof.Machine

/-! ## A request on offer (R149, R179) -/

section

variable {s : State} {code : Byte} {len : Nat} {a : Authority} {f : MgmtFrame} {rest : List MgmtFrame}

/-- A request on offer is answered by its rule, and then the arbiter looks at the lane. -/
theorem State.finish_of_offers {u : MgmtUnit} (h : s.offers u code len a f rest)
    (rule : Authority → MgmtFrame → State → State) :
    (s.serve u code len rule).finish = .next (rule a f { s with mgmt := rest }).upstream :=
  congrArg (fun t : State => t.finish) (State.serve_of_offers h rule)

/-- A request for a station above 3 is answered RANGE without results. -/
theorem State.finish_of_no_station (h : s.offers .station code len a f rest) (rule : St → MgmtFrame → State → State)
    (hst : 3 < (byteAt f.args 0).toNat) :
    (s.serve .station code len (stationRequest rule)).finish =
      .next (({ s with mgmt := rest } : State).answer f .range .empty).upstream := by
  rw [State.finish_of_offers h, stationRequest, stationOf_eq_none hst]

/-- A request for a station is answered by that station's rule. -/
theorem State.finish_of_station (h : s.offers .station code len a f rest) (rule : St → MgmtFrame → State → State)
    {st : St} (hst : stationOf (byteAt f.args 0) = some st) :
    (s.serve .station code len (stationRequest rule)).finish =
      .next (rule st f { s with mgmt := rest }).upstream := by
  rw [State.finish_of_offers h, stationRequest, hst]

/-- A request that the works judge and refuse is answered with the station as it stands. -/
theorem State.finish_of_refused (h : s.offers .station code len a f rest) {judge : St → State → Except ReplyStatus Works}
    {st : St} (hst : stationOf (byteAt f.args 0) = some st) {k : ReplyStatus}
    (hj : judge st { s with mgmt := rest } = .error k) :
    (s.serve .station code len (stationRequest (stationWork judge))).finish =
      .next (({ s with mgmt := rest } : State).answer f k
        (.station (s.works.station st).state (s.works.station st).holds)).upstream := by
  rw [State.finish_of_station h _ hst, stationWork, hj]
  rfl

/-- A request that the works judge and accept is answered with the station as it then stands. -/
theorem State.finish_of_accepted (h : s.offers .station code len a f rest)
    {judge : St → State → Except ReplyStatus Works} {st : St} (hst : stationOf (byteAt f.args 0) = some st) {w : Works}
    (hj : judge st { s with mgmt := rest } = .ok w) :
    (s.serve .station code len (stationRequest (stationWork judge))).finish =
      .next (({ s with mgmt := rest, works := w } : State).answer f .ok
        (.station (w.station st).state (w.station st).holds)).upstream := by
  rw [State.finish_of_station h _ hst, stationWork, hj]
  rfl

end

/-! ## ACTIVE or HELD -/

theorem Station.working_iff (x : Station) : x.working = true ↔ x.state = .active ∨ x.state = .held := by
  simp only [Station.working, Bool.or_eq_true, decide_eq_true_eq]

theorem Station.not_working_iff (x : Station) : x.working = false ↔ x.state = .idle ∨ x.state = .aborting := by
  cases h : x.state <;> simp [Station.working, h]

/-! ## Reading requests (R79, R93, R109, R175, R187) -/

/-- Settles O12: each reading request only answers. -/
theorem readingRequestsAnswerAndChangeNothing : Obligations.ReadingRequestsAnswerAndChangeNothing := by
  unfold Obligations.ReadingRequestsAnswerAndChangeNothing
  intro s a f rest s0 mine
  exact ⟨fun h => State.finish_of_offers h summary, fun h => State.finish_of_offers h timeRead,
    fun h => State.finish_of_offers h kerfStatus, fun h => State.finish_of_offers h senseRead,
    fun h => ⟨State.finish_of_no_station h statusOf, fun st hst => State.finish_of_station h statusOf hst⟩⟩

/-! ## TIME_SET (R187) -/

/-- The time left on a wait moved with the time base. -/
theorem moved_wait_left (e v now : Time) : e + (v - now) - v = e - now := by
  bv_omega

/-- Settles O13: every armed wait moves by the amount by which the time base was moved. -/
theorem timeSetMovesTheCatchWaits : Obligations.TimeSetMovesTheCatchWaits := by
  unfold Obligations.TimeSetMovesTheCatchWaits
  intro s a f rest h v
  refine ⟨s.works.setTime v, State.finish_of_offers h timeSet, rfl, rfl, rfl, rfl, fun st =>
    ⟨(s.works.station st).catchWait.map fun e => e + (v - s.works.time), PerStation.get_ofStations _ st, fun unarmed => ?_,
      fun e armed => ⟨e + (v - s.works.time), ?_, moved_wait_left e v s.works.time, ?_⟩⟩⟩
  · rw [unarmed, Option.map_none]
  · rw [armed, Option.map_some]
  · rw [catchRemaining, moved_wait_left, catchRemaining]

/-! ## BEGIN_PROGRAM (R36) -/

section

variable (st : St) {f : MgmtFrame} {s : State}

/-- A tag of 0 is refused. -/
theorem beginProgram_of_no_tag (h : byteAt f.args 1 = 0) : beginProgram st f s = s.answer f .range .empty :=
  if_pos h

/-- A station that is not IDLE, or whose BREAK line is disabled, refuses. -/
theorem beginProgram_of_unready (h : byteAt f.args 1 ≠ 0)
    (unready : (s.works.station st).state ≠ .idle ∨ (s.lines.get st).breakLine.enable = false) :
    beginProgram st f s = s.answer f .state .empty := by
  rw [beginProgram, if_neg h]
  by_cases idle : (s.works.station st).state = .idle
  · rw [if_neg (not_not_intro idle), if_pos (unready.resolve_left (not_not_intro idle))]
  · rw [if_pos idle]

/-- An IDLE station with its BREAK line enabled takes the program. -/
theorem beginProgram_of_ready (h : byteAt f.args 1 ≠ 0) (idle : (s.works.station st).state = .idle)
    (enabled : (s.lines.get st).breakLine.enable = true) :
    beginProgram st f s =
      (s.onWorks fun w => w.upd st fun x => x.begin (byteAt f.args 1) (word16At f.args 2)).answer f .ok
        (.opened (byteAt f.args 1) (word16At f.args 2) 128) := by
  rw [beginProgram, if_neg h, if_neg (not_not_intro idle), if_neg (by rw [enabled]; nofun)]

end

/-- Settles O14: the checks in order, and the effect of an accepted one. -/
theorem beginProgramOpensTheStation : Obligations.BeginProgramOpensTheStation := by
  unfold Obligations.BeginProgramOpensTheStation
  intro s a f rest h s0 tag first
  refine ⟨State.finish_of_no_station h beginProgram, fun st hst => ?_⟩
  have taken : exec .beginProgram s = .next (beginProgram st f s0).upstream := State.finish_of_station h beginProgram hst
  rw [taken]
  refine ⟨fun none => ?_, fun named unready => ?_, fun named idle enabled => ?_⟩
  · rw [beginProgram_of_no_tag (s := s0) st none]
  · rw [beginProgram_of_unready (s := s0) st named unready]
  · rw [beginProgram_of_ready (s := s0) st named idle enabled]
    rfl

/-! ## Hold reasons (R144, R145) -/

/-- Calling a STOP, as one change of the field. -/
theorem Station.callStop_stopAwaited :
    Station.callStop = fun y => { y with stopAwaited := y.stopAwaited || y.pair.any fun o => o.body.stoppable } := by
  funext y
  unfold Station.callStop
  split
  case isTrue h => rw [h, Bool.or_true]
  case isFalse h => rw [Bool.not_eq_true _ |>.mp h, Bool.or_false]

section

variable {w : Works} {st : St} {rs : Holds} (code : Option Byte) (cause : Option Cause)

/-- New reasons hold a station that is ACTIVE or HELD. -/
theorem Works.addHolds_of_new (hw : (w.station st).state = .active ∨ (w.station st).state = .held)
    (new : rs.without (w.station st).holds ≠ Holds.none) :
    w.addHolds st rs code cause =
      (((w.upd st fun x => { x with
          holds := (w.station st).holds.union (rs.without (w.station st).holds), state := .held }).report st
        (.held (rs.without (w.station st).holds) ((w.station st).holds.union (rs.without (w.station st).holds))
          (w.station st).activity (w.station st).current
          (if (rs.without (w.station st).holds).driveFault then code else none)
          (if (rs.without (w.station st).holds).contourFailed then cause else none))).raise (flagStationHeld st)).upd st
            Station.callStop := by
  rw [Works.addHolds, if_pos ⟨(Station.working_iff _).mpr hw, new⟩]

/-- A station that new reasons hold is HELD with the whole set. -/
theorem Works.addHolds_held (hw : (w.station st).state = .active ∨ (w.station st).state = .held)
    (new : rs.without (w.station st).holds ≠ Holds.none) :
    ((w.addHolds st rs code cause).station st).state = .held
      ∧ ((w.addHolds st rs code cause).station st).holds
        = (w.station st).holds.union (rs.without (w.station st).holds) := by
  rw [Works.addHolds_of_new code cause hw new, Works.station_upd_same, Works.raise_station]
  generalize ReportBody.held _ _ _ _ _ _ = body
  obtain ⟨rs', lost, hr⟩ := Works.report_station (w.upd st fun x => { x with
    holds := (w.station st).holds.union (rs.without (w.station st).holds), state := .held }) st body
  rw [hr, Works.station_upd_same, Station.callStop_stopAwaited]
  exact ⟨rfl, rfl⟩

end

/-- Settles O15: new reasons on a working station, and nothing otherwise. -/
theorem holdReasonsAreAddedOnce : Obligations.HoldReasonsAreAddedOnce := by
  unfold Obligations.HoldReasonsAreAddedOnce
  intro w st rs code cause x new all
  refine ⟨fun ⟨hw, hnew⟩ => ?adds, fun h => ?nothing⟩
  case adds =>
    rw [Works.addHolds_of_new code cause hw hnew, Station.callStop_stopAwaited]
  case nothing =>
    obtain idle | aborting | old := h
    · exact Works.addHolds_of_not_working _ _ _ ((Station.not_working_iff _).mpr (.inl idle))
    · exact Works.addHolds_of_not_working _ _ _ ((Station.not_working_iff _).mpr (.inr aborting))
    · exact Works.addHolds_of_old _ _ old

/-! ## HOLD (R150) -/

/-- REQUEST is new to a set without it. -/
theorem Holds.request_new {h : Holds} (hr : h.request = false) :
    ({ request := true } : Holds).without h ≠ Holds.none
      ∧ h.union (({ request := true } : Holds).without h) = { h with request := true } := by
  refine ⟨fun eq => ?_, ?_⟩
  · have := congrArg Holds.request eq
    simp [Holds.without, Holds.zip, Holds.none, hr] at this
  · simp [Holds.without, Holds.union, Holds.zip, hr]

/-- REQUEST is not new to a set that holds it. -/
theorem Holds.request_old {h : Holds} (hr : h.request = true) : ({ request := true } : Holds).without h = Holds.none := by
  simp [Holds.without, Holds.zip, Holds.none, hr]

/-- Settles O16: refused away from ACTIVE and HELD, and otherwise REQUEST joins the set. -/
theorem holdAddsRequest : Obligations.HoldAddsRequest := by
  unfold Obligations.HoldAddsRequest
  intro s a f rest h s0
  refine ⟨State.finish_of_no_station h _, fun st hst => ?_⟩
  intro x
  refine ⟨fun refused => ?refused, fun hw present => ?present, fun hw absent => ?absent⟩
  case refused =>
    have hj : judgeHold st s0 = .error .state :=
      if_neg (by rw [Station.not_working_iff _ |>.mpr refused]; nofun)
    exact State.finish_of_refused h hst hj
  all_goals
    have hj : judgeHold st s0 = .ok (s.works.addHolds st { request := true } none none) :=
      if_pos ((Station.working_iff _).mpr hw)
    have accepted : exec .hold s = _ := State.finish_of_accepted h hst hj
    rw [accepted]
  case present =>
    rw [Works.addHolds_of_old none none (Holds.request_old present)]
  case absent =>
    obtain ⟨new, union⟩ := Holds.request_new absent
    obtain ⟨hstate, hholds⟩ := Works.addHolds_held (rs := { request := true }) none none hw new
    rw [hstate, hholds, union]

/-! ## SET_STATION (R111) -/

/-- A relock code is 0 for RETRY or 1 for FAIL. -/
theorem relockOf_eq_some {b : Byte} (h : b.toNat ≤ 1) : relockOf b = some (if b.toNat = 0 then .retry else .fail) := by
  obtain h0 | h1 : b.toNat = 0 ∨ b.toNat = 1 := by omega
  · simp [relockOf, h0]
  · simp [relockOf, h1]

/-- A relock code above 1 names no policy. -/
theorem relockOf_eq_none {b : Byte} (h : 1 < b.toNat) : relockOf b = none := by
  unfold relockOf
  split
  · omega
  · omega
  · rfl

/-- The arguments of a SET_STATION hold a parameter that R111 rules out. -/
def ParamsOutOfRange (a : List Byte) : Prop :=
  (byteAt a 1).toNat = 0 ∨ 15 < (byteAt a 1).toNat ∨ (byteAt a 2).toNat = 0 ∨ 7 < (byteAt a 2).toNat
    ∨ (byteAt a 3).toNat = 0 ∨ 7 < (byteAt a 3).toNat ∨ 1 < (byteAt a 4).toNat ∨ 1 < (byteAt a 5).toNat

/-- The five parameters as the arguments carry them. -/
def paramsAt (a : List Byte) : Params where
  lockCount := (byteAt a 1).toNat
  offsetBound := (byteAt a 2).toNat
  inKerfLimit := (byteAt a 3).toNat
  relock := if (byteAt a 4).toNat = 0 then .retry else .fail
  gapHold := decide ((byteAt a 5).toNat = 1)

theorem paramsOf_eq_none {a : List Byte} (h : ParamsOutOfRange a) : paramsOf a = none := by
  unfold paramsOf
  split
  case h_1 relock gapHold hrelock hgap =>
    have relock_le : ¬1 < (byteAt a 4).toNat := fun h => by simp [relockOf_eq_none h] at hrelock
    have gap_le : ¬1 < (byteAt a 5).toNat := fun h => by simp [boolOf_eq_none h] at hgap
    exact if_neg (by unfold ParamsOutOfRange at h; omega)
  case h_2 => rfl

theorem paramsOf_eq_some {a : List Byte} (h : ¬ParamsOutOfRange a) : paramsOf a = some (paramsAt a) := by
  simp only [ParamsOutOfRange, not_or] at h
  obtain ⟨h1, h2, h3, h4, h5, h6, hrelock, hgap⟩ := h
  simp only [paramsOf, relockOf_eq_some (Nat.le_of_not_lt hrelock), boolOf_eq_some (Nat.le_of_not_lt hgap)]
  exact if_pos (by omega)

section

variable (a : Authority) {f : MgmtFrame} (s : State)

/-- No station or no parameters: RANGE. -/
theorem setStation_of_bad (h : 3 < (byteAt f.args 0).toNat ∨ ParamsOutOfRange f.args) :
    setStation a f s = s.answer f .range .empty := by
  unfold setStation
  split
  case h_1 st p hst hp =>
    obtain big | out := h
    · simp [stationOf_eq_none big] at hst
    · simp [paramsOf_eq_none out] at hp
  case h_2 => rfl
  case h_3 => rfl

/-- Parameters in range are locked, or set. -/
theorem setStation_of_good {st : St} (hst : stationOf (byteAt f.args 0) = some st) (h : ¬ParamsOutOfRange f.args) :
    setStation a f s =
      if a = .planner ∧ (s.works.station st).state ≠ .idle then s.answerParams f st .locked
      else (s.onWorks fun w => w.upd st fun x => x.setParams (paramsAt f.args)).answerParams f st .ok := by
  simp only [setStation, hst, paramsOf_eq_some h]

end

/-- Settles O22: the range checks, the lock, and the two ways a set is kept. -/
theorem setStationReplacesOrStages : Obligations.SetStationReplacesOrStages := by
  unfold Obligations.SetStationReplacesOrStages
  intro s a f rest h s0 n b k relock gapHold bad
  have taken : exec .setStation s = .next (setStation a f s0).upstream := State.finish_of_offers h setStation
  rw [taken]
  refine ⟨fun hbad => ?bad, fun st hgood hst => ?good⟩
  case bad => rw [setStation_of_bad a s0 hbad]
  intro x p
  have inRange : ¬ParamsOutOfRange f.args := fun out => hgood (.inr out)
  rw [setStation_of_good a s0 hst inRange]
  refine ⟨fun planner busy => ?locked, fun idle => ?idle, fun service busy => ?staged⟩
  case locked =>
    rw [if_pos ⟨planner, busy⟩]
    rfl
  case idle =>
    have set : s0.works.upd st (fun x => x.setParams (paramsAt f.args))
        = s.works.upd st fun x => { x with tc := { x.tc with params := p, staged := none } } :=
      Works.upd_congr _ _ (if_pos idle)
    rw [if_neg fun locked => locked.2 idle, State.answerParams, State.onWorks, set, Works.station_upd_same]
  case staged =>
    have set : s0.works.upd st (fun x => x.setParams (paramsAt f.args))
        = s.works.upd st fun x => { x with tc := { x.tc with staged := some p } } :=
      Works.upd_congr _ _ (if_neg busy)
    have unlocked : ¬(a = .planner ∧ (s0.works.station st).state ≠ .idle) := by
      rw [service]
      nofun
    rw [if_neg unlocked, State.answerParams, State.onWorks, set,
      Works.station_upd_same]

end Sys2Proof.Machine
end

section
/-! PROOFS. The requests that read contours and plans and SET_PLAN (R11, R15, R23 to R29, R31), and the notice flags
(R184, R185). -/

namespace Sys2Proof.Machine

/-! ## READ_CONTOUR and READ_PLAN (R11, R15, R31) -/

section

variable (a : Authority) {f : MgmtFrame} {s : State}

theorem readContour_of_zero (h : f.id = 0) : readContour a f s = s.answer f .range (.contourId 0) := if_pos h

theorem readContour_of_free (h : f.id ≠ 0) (hc : s.works.contour? f.id = none) :
    readContour a f s = s.answer f .undefined (.contourState f.id none) := by
  simp only [readContour, if_neg h, hc, State.answerContour, Option.map_none]

theorem readContour_of_record {c : Contour} (h : f.id ≠ 0) (hc : s.works.contour? f.id = some c) :
    readContour a f s = s.answer f .ok (.contour f.id c.state c.cfg c.prog) := by
  simp only [readContour, if_neg h, hc]

theorem readPlan_of_zero (h : f.id = 0) : readPlan a f s = s.answer f .range .empty := if_pos h

theorem readPlan_of_free (h : f.id ≠ 0) (hc : s.works.contour? f.id = none) :
    readPlan a f s = s.answer f .undefined .empty := by
  simp only [readPlan, if_neg h, hc]

theorem readPlan_of_record {c : Contour} (h : f.id ≠ 0) (hc : s.works.contour? f.id = some c) :
    readPlan a f s = s.answer f .ok (.planRead (c.planView c.plan)) := by
  simp only [readPlan, if_neg h, hc]

end

/-- Settles O25: the three answers of each request. -/
theorem readContourAndReadPlanChangeNothing : Obligations.ReadContourAndReadPlanChangeNothing := by
  unfold Obligations.ReadContourAndReadPlanChangeNothing
  intro s a f rest s0 id
  refine ⟨fun h => ?contour, fun h => ?plan⟩
  case contour =>
    have taken : exec .readContour s = .next (readContour a f s0).upstream := State.finish_of_offers h readContour
    rw [taken]
    refine ⟨fun zero => ?_, fun nonzero free => ?_, fun c nonzero record => ?_⟩
    · rw [readContour_of_zero a zero]
    · rw [readContour_of_free (s := s0) a nonzero free]
      rfl
    · rw [readContour_of_record (s := s0) a nonzero record]
      rfl
  case plan =>
    have taken : exec .readPlan s = .next (readPlan a f s0).upstream := State.finish_of_offers h readPlan
    rw [taken]
    refine ⟨fun zero => ?_, fun nonzero free => ?_, fun c nonzero record => ?_⟩
    · rw [readPlan_of_zero a zero]
    · rw [readPlan_of_free (s := s0) a nonzero free]
    · rw [readPlan_of_record (s := s0) a nonzero record]
      rfl

/-! ## The plan a SET_PLAN carries (R23) -/

/-- An approach code is 0 for FORWARD or 1 for REVERSE. -/
theorem approachOf_eq_some {b : Byte} (h : b.toNat ≤ 1) :
    approachOf b = some (if b.toNat = 0 then .forward else .reverse) := by
  obtain h0 | h1 : b.toNat = 0 ∨ b.toNat = 1 := by omega
  · simp [approachOf, h0]
  · simp [approachOf, h1]

theorem approachOf_eq_none {b : Byte} (h : 1 < b.toNat) : approachOf b = none := by
  unfold approachOf
  split
  · omega
  · omega
  · rfl

/-- A confirm code is 0 for PLAIN, 1 for CATCHER or 2 for PAUSE. -/
theorem confirmOf_eq_some {b : Byte} (h : b.toNat ≤ 2) :
    confirmOf b = some (if b.toNat = 0 then .plain else if b.toNat = 1 then .catcher else .pause) := by
  obtain h0 | h1 | h2 : b.toNat = 0 ∨ b.toNat = 1 ∨ b.toNat = 2 := by omega
  · simp [confirmOf, h0]
  · simp [confirmOf, h1]
  · simp [confirmOf, h2]

theorem confirmOf_eq_none {b : Byte} (h : 2 < b.toNat) : confirmOf b = none := by
  unfold confirmOf
  split
  · omega
  · omega
  · omega
  · rfl

/-- The arguments of a SET_PLAN hold a code that names no value, or no catch timeout. -/
def PlanCodesBad (a : List Byte) : Prop :=
  (byteAt a 6).toNat = 0 ∨ 3 < (byteAt a 1).toNat
    ∨ ((byteAt a 1).toNat = 3 ∧ (1 < (byteAt a 4).toNat ∨ 2 < (byteAt a 5).toNat))

/-- The plan as the arguments carry it. -/
def planAt (a : List Byte) : Plan where
  timeout := (byteAt a 6).toNat
  mode :=
    if (byteAt a 1).toNat = 0 then .plain else if (byteAt a 1).toNat = 1 then .catcher
    else if (byteAt a 1).toNat = 2 then .pause
    else .tab (word16At a 2).toNat (if (byteAt a 4).toNat = 0 then .forward else .reverse)
      (if (byteAt a 5).toNat = 0 then .plain else if (byteAt a 5).toNat = 1 then .catcher else .pause)

theorem planOf_eq_none {a : List Byte} (h : PlanCodesBad a) : planOf a = none := by
  obtain timeout | mode | ⟨tab, codes⟩ := h
  · simp [planOf, timeout]
  · simp only [planOf]
    split
    · rfl
    · split
      · omega
      · omega
      · omega
      · omega
      · rfl
  · simp only [planOf, tab]
    split
    · rfl
    · split
      case h_1 ap cf hap hcf =>
        obtain approach | confirm := codes
        · simp [approachOf_eq_none approach] at hap
        · simp [confirmOf_eq_none confirm] at hcf
      case h_2 => rfl

theorem planOf_eq_some {a : List Byte} (h : ¬PlanCodesBad a) : planOf a = some (planAt a) := by
  simp only [PlanCodesBad, not_or, not_and] at h
  obtain ⟨htimeout, hmode, htab⟩ := h
  have modes : (byteAt a 1).toNat = 0 ∨ (byteAt a 1).toNat = 1 ∨ (byteAt a 1).toNat = 2 ∨ (byteAt a 1).toNat = 3 := by
    omega
  obtain m | m | m | m := modes
  · simp [planOf, planAt, htimeout, m]
  · simp [planOf, planAt, htimeout, m]
  · simp [planOf, planAt, htimeout, m]
  · obtain ⟨hap, hcf⟩ := htab m
    simp [planOf, planAt, htimeout, m, approachOf_eq_some (Nat.le_of_not_lt hap), confirmOf_eq_some (Nat.le_of_not_lt hcf)]

/-- The tab ordinal of a plan of mode TAB, and of no other. -/
theorem planAt_tabOrdinal? {a : List Byte} (h : ¬PlanCodesBad a) :
    (planAt a).tabOrdinal? = if (byteAt a 1).toNat = 3 then some (word16At a 2).toNat else none := by
  simp only [PlanCodesBad, not_or, not_and] at h
  obtain ⟨-, hmode, -⟩ := h
  have modes : (byteAt a 1).toNat = 0 ∨ (byteAt a 1).toNat = 1 ∨ (byteAt a 1).toNat = 2 ∨ (byteAt a 1).toNat = 3 := by
    omega
  obtain m | m | m | m := modes <;> simp [planAt, Plan.tabOrdinal?, m]

/-- Being in bounds, by the codes. -/
theorem planAt_inBounds_iff {a : List Byte} (h : ¬PlanCodesBad a) (cfg : ContourConfig) :
    (planAt a).inBounds cfg = true
      ↔ ¬((byteAt a 1).toNat = 3 ∧ ((word16At a 2).toNat < cfg.leadIn + 2 ∨ cfg.segments < (word16At a 2).toNat)) := by
  rw [Plan.inBounds, planAt_tabOrdinal? h]
  by_cases tab : (byteAt a 1).toNat = 3
  · simp [tab]
  · simp [tab]

/-! ## SET_PLAN (R23 to R29) -/

section

variable {f : MgmtFrame} {s : State} (a : Authority) {c : Contour}

theorem setPlan_of_zero (h : f.id = 0) : setPlan a f s = s.answer f .range (.contourId 0) := if_pos h

theorem setPlan_of_free (h : f.id ≠ 0) (hc : s.works.contour? f.id = none) :
    setPlan a f s = s.answer f .undefined (.contourId f.id) := by
  simp only [setPlan, if_neg h, hc]

/-- Arguments that carry no plan within the bounds of the record are out of range. -/
theorem setPlan_of_no_plan (h : f.id ≠ 0) (hc : s.works.contour? f.id = some c)
    (hp : ((planOf f.args).filter fun p => p.inBounds c.cfg) = none) :
    setPlan a f s = s.answer f .range (.plan f.id (c.planView c.plan)) := by
  simp only [setPlan, if_neg h, hc, hp]

/-- A plan within the bounds of the record is locked or takes the record's place. -/
theorem setPlan_of_plan {p : Plan} (h : f.id ≠ 0) (hc : s.works.contour? f.id = some c)
    (hp : ((planOf f.args).filter fun p => p.inBounds c.cfg) = some p) :
    setPlan a f s =
      if s.works.editAllowed c p a then
        (s.onWorks fun w => w.setPlan f.id c.cfg.station p).answer f .ok (.plan f.id (c.planView p))
      else s.answer f .locked (.plan f.id (c.planView c.plan)) := by
  simp only [setPlan, if_neg h, hc, hp]

end

/-- Settles O26: the checks in order, and an accepted edit. -/
theorem setPlanIsJudgedInOrder : Obligations.SetPlanIsJudgedInOrder := by
  unfold Obligations.SetPlanIsJudgedInOrder
  intro s a f rest h s0 id mode t approach confirm timeout bad plan
  have taken : exec .setPlan s = .next (setPlan a f s0).upstream := State.finish_of_offers h setPlan
  rw [taken]
  refine ⟨fun zero => ?zero, fun nonzero free => ?free, fun c nonzero record => ?record⟩
  case zero => rw [setPlan_of_zero a zero]
  case free =>
    rw [setPlan_of_free (s := s0) a nonzero free]
    rfl
  case record =>
    intro view outside
    have kept (good : ¬bad) (inside : ¬outside) :
        ((planOf f.args).filter fun p => p.inBounds c.cfg) = some (planAt f.args) := by
      rw [planOf_eq_some good, Option.filter_some, if_pos ((planAt_inBounds_iff good c.cfg).mpr inside)]
    refine ⟨fun out => ?range, fun good inside refused => ?locked, fun good inside allowed => ?accepted⟩
    case range =>
      have dropped : ((planOf f.args).filter fun p => p.inBounds c.cfg) = none := by
        by_cases good : PlanCodesBad f.args
        · rw [planOf_eq_none good, Option.filter_none]
        · have outBounds := mt (planAt_inBounds_iff good c.cfg).mp (not_not_intro (out.resolve_left good))
          rw [planOf_eq_some good, Option.filter_some, if_neg outBounds]
      rw [setPlan_of_no_plan (s := s0) a nonzero record dropped]
      rfl
    case locked =>
      have locked : ¬s0.works.editAllowed c (planAt f.args) a = true := Bool.eq_false_iff.mp refused
      rw [setPlan_of_plan (s := s0) a nonzero record (kept good inside), if_neg locked]
      rfl
    case accepted =>
      have accepted : s0.works.editAllowed c (planAt f.args) a = true := allowed
      rw [setPlan_of_plan (s := s0) a nonzero record (kept good inside), if_pos accepted]
      rfl

/-! ## Notice flags (R184, R185) -/

theorem Notices.raise_of_clear {u : Notices} {n : Nat} (h : u.flags.getLsbD n = false) :
    u.raise n = { u with flags := u.flags ||| bit16 n, pending := u.pending || u.enables.getLsbD n } :=
  if_neg (by rw [h]; nofun)

/-- A mask of one bit. -/
theorem getLsbD_bit16 {n : Nat} (hn : n < 16) (i : Nat) : (bit16 n).getLsbD i = decide (i = n) := by
  rw [bit16, BitVec.getLsbD_ofNat, Nat.testBit_two_pow]
  by_cases h : n = i
  · simp [← h, hn]
  · simp [h, Ne.symm h]

/-- Settles O33: a flag already set, a flag newly set bit by bit, and the numbers of the flags. -/
theorem flagsAreSetOnceAndMakeNoticesPending : Obligations.FlagsAreSetOnceAndMakeNoticesPending := by
  unfold Obligations.FlagsAreSetOnceAndMakeNoticesPending
  refine ⟨fun u n hn => ⟨fun set => if_pos set, fun clear => ?newly⟩, fun st => ⟨rfl, rfl⟩, rfl⟩
  case newly =>
    rw [Notices.raise_of_clear clear]
    refine ⟨fun i => ?_, rfl, rfl⟩
    rw [BitVec.getLsbD_or, getLsbD_bit16 hn]

end Sys2Proof.Machine
end

section
/-! PROOFS. The requests of the GAP, SENSE and STORE units (R168 to R171, R174, R181, R188, R189). -/

namespace Sys2Proof.Machine

/-! ## A GAP request on offer (R168) -/

section

variable {s : State} {code : Byte} {len : Nat} {a : Authority} {f : MgmtFrame} {rest : List MgmtFrame}
  (h : s.offers .gap code len a f rest) (rule : St → MgmtFrame → State → State)
include h

/-- While a GAP_SINGLE is outstanding every request is BUSY. -/
theorem State.finish_of_gap_busy (busy : s.gap.outstanding ≠ none) :
    (s.serve .gap code len (gapRequest rule)).finish =
      .next (({ s with mgmt := rest } : State).answer f .busy .empty).upstream := by
  have outstanding : s.gap.outstanding.isSome = true := Option.isSome_iff_ne_none.mpr busy
  rw [State.finish_of_offers h, gapRequest, if_pos outstanding]

/-- With none outstanding, a station above 3 is RANGE. -/
theorem State.finish_of_gap_outside (free : s.gap.outstanding = none) (hst : 3 < (byteAt f.args 0).toNat) :
    (s.serve .gap code len (gapRequest rule)).finish =
      .next (({ s with mgmt := rest } : State).answer f .range .empty).upstream := by
  have outstanding : ¬s.gap.outstanding.isSome = true := by rw [free]; nofun
  rw [State.finish_of_offers h, gapRequest, if_neg outstanding, stationOf_eq_none hst]

/-- With none outstanding, a station's request follows its rule. -/
theorem State.finish_of_gap_station (free : s.gap.outstanding = none) {st : St}
    (hst : stationOf (byteAt f.args 0) = some st) :
    (s.serve .gap code len (gapRequest rule)).finish = .next (rule st f { s with mgmt := rest }).upstream := by
  have outstanding : ¬s.gap.outstanding.isSome = true := by rw [free]; nofun
  rw [State.finish_of_offers h, gapRequest, if_neg outstanding, hst]

end

/-! ## GAP_CONFIG (R169) -/

/-- A gap mode code is 0 to 3. -/
theorem gapModeOf_eq_some {b : Byte} (h : b.toNat ≤ 3) :
    gapModeOf b = some (if b.toNat = 0 then .off else if b.toNat = 1 then .single else if b.toNat = 2 then .continuous
      else .continuousHold) := by
  obtain m | m | m | m : b.toNat = 0 ∨ b.toNat = 1 ∨ b.toNat = 2 ∨ b.toNat = 3 := by omega
  · simp [gapModeOf, m]
  · simp [gapModeOf, m]
  · simp [gapModeOf, m]
  · simp [gapModeOf, m]

theorem gapModeOf_eq_none {b : Byte} (h : 3 < b.toNat) : gapModeOf b = none := by
  unfold gapModeOf
  split
  · omega
  · omega
  · omega
  · omega
  · rfl

/-- The arguments of a GAP_CONFIG hold a value that R169 rules out. -/
def GapValuesBad (a : List Byte) : Prop :=
  3 < (byteAt a 1).toNat ∨ (word16At a 2).toNat < 16 ∨ 256 < (word16At a 2).toNat ∨ (word16At a 2).toNat % 16 ≠ 0
    ∨ 4095 < (word16At a 4).toNat ∨ (byteAt a 6).toNat = 0 ∨ 100 < (byteAt a 6).toNat ∨ 4095 < (word16At a 7).toNat

/-- The five values as the arguments carry them. -/
def gapConfigAt (a : List Byte) : GapConfig where
  window := (word16At a 2).toNat
  threshold := (word16At a 4).toNat
  ratio := (byteAt a 6).toNat
  gain := (word16At a 7).toNat
  mode :=
    if (byteAt a 1).toNat = 0 then .off else if (byteAt a 1).toNat = 1 then .single
    else if (byteAt a 1).toNat = 2 then .continuous else .continuousHold

theorem gapConfigOf_eq_none {a : List Byte} (h : GapValuesBad a) : gapConfigOf a = none := by
  unfold gapConfigOf
  split
  case h_1 mode hmode =>
    have mode_le : ¬3 < (byteAt a 1).toNat := fun big => by simp [gapModeOf_eq_none big] at hmode
    exact if_neg (by unfold GapValuesBad at h; omega)
  case h_2 => rfl

theorem gapConfigOf_eq_some {a : List Byte} (h : ¬GapValuesBad a) : gapConfigOf a = some (gapConfigAt a) := by
  simp only [GapValuesBad, not_or] at h
  obtain ⟨hmode, h1, h2, h3, h4, h5, h6, h7⟩ := h
  simp only [gapConfigOf, gapModeOf_eq_some (Nat.le_of_not_lt hmode)]
  exact if_pos (by omega)

/-- Of the values in range only those of code 0 set the mode OFF. -/
theorem gapConfigAt_mode_ne_off (a : List Byte) : ((gapConfigAt a).mode != .off) = !decide ((byteAt a 1).toNat = 0) := by
  unfold gapConfigAt
  by_cases off : (byteAt a 1).toNat = 0
  · simp [off]
  · simp only [off, if_false, decide_false, Bool.not_false, bne_iff_ne]
    split
    · nofun
    · split
      · nofun
      · nofun

/-- A configured channel starts a new window, and keeps its alarm unless the mode is OFF. -/
theorem GapChannel.configure_gapConfigAt (c : GapChannel) (a : List Byte) :
    c.configure (gapConfigAt a) =
      { c with
        cfg := gapConfigAt a, count := 0, shorts := 0
        alarm := if (byteAt a 1).toNat = 0 then false else c.alarm } := by
  rw [GapChannel.configure, gapConfigAt_mode_ne_off]
  by_cases off : (byteAt a 1).toNat = 0
  · rw [decide_eq_true off, if_pos off, Bool.not_true, Bool.and_false]
  · rw [decide_eq_false off, if_neg off, Bool.not_false, Bool.and_true]

/-- Settles O28: BUSY, RANGE, and the channel with its new values. -/
theorem gapConfigReplacesTheValues : Obligations.GapConfigReplacesTheValues := by
  unfold Obligations.GapConfigReplacesTheValues
  intro s a f rest h s0 mode window threshold ratio gain bad
  refine ⟨State.finish_of_gap_busy h gapConfig, fun free hbad => ?range, fun st free hgood hst => ?accepted⟩
  case range =>
    by_cases outside : 3 < (byteAt f.args 0).toNat
    · exact State.finish_of_gap_outside h gapConfig free outside
    · have hst := stationOf_eq_some (Nat.le_of_not_lt outside)
      have taken : exec .gapConfig s = .next (gapConfig _ f s0).upstream :=
        State.finish_of_gap_station h gapConfig free hst
      have none_read : gapConfigOf f.args = none := gapConfigOf_eq_none (hbad.resolve_left outside)
      rw [taken, gapConfig, none_read]
  case accepted =>
    have taken : exec .gapConfig s = .next (gapConfig st f s0).upstream :=
      State.finish_of_gap_station h gapConfig free hst
    have read : gapConfigOf f.args = some (gapConfigAt f.args) := gapConfigOf_eq_some fun out => hgood (.inr out)
    rw [taken, gapConfig, read]
    simp only [State.onChannel, GapMonitor.modChannel, GapChannel.configure_gapConfigAt]
    rfl

/-! ## GAP_SINGLE (R170, R181) -/

section

variable (st : St) {f : MgmtFrame} {s : State}

theorem gapSingle_of_off (off : (s.gap.channels.get st).cfg.mode = .off) :
    gapSingle st f s = s.answer f .state .empty := if_pos off

theorem gapSingle_of_on (on : (s.gap.channels.get st).cfg.mode ≠ .off) :
    gapSingle st f s =
      { s with gap := { s.gap with pendingSingle := some st, outstanding := some { tn := f.tn, st := st } } } :=
  if_neg on

end

/-- Settles O29: BUSY, RANGE, STATE, and the place reserved by an accepted one. -/
theorem gapSingleIsPendingAndReserved : Obligations.GapSingleIsPendingAndReserved := by
  unfold Obligations.GapSingleIsPendingAndReserved
  intro s a f rest h s0
  refine ⟨State.finish_of_gap_busy h gapSingle, State.finish_of_gap_outside h gapSingle, fun st free hst => ?_⟩
  have taken : exec .gapSingle s = .next (gapSingle st f s0).upstream :=
    State.finish_of_gap_station h gapSingle free hst
  refine ⟨fun off => ?_, fun on => ⟨?_, ?_⟩⟩
  · rw [taken, gapSingle_of_off (s := s0) st off]
  · rw [taken, gapSingle_of_on (s := s0) st on]
  · simp [State.reserved, free, s0, Nat.add_comm]

/-! ## GAP_READ, GAP_CLEAR and GAP_RESET_EXTREMES (R171) -/

/-- Settles O30: each of the three follows its rule once it is neither BUSY nor out of range. -/
theorem gapReadClearAndResetExtremes : Obligations.GapReadClearAndResetExtremes := by
  unfold Obligations.GapReadClearAndResetExtremes
  intro s a f rest s0 busy outside
  exact
    ⟨fun h => ⟨State.finish_of_gap_busy h gapRead, fun out => State.finish_of_gap_outside h gapRead out.1 out.2,
        fun st free hst => State.finish_of_gap_station h gapRead (Classical.not_not.mp free) hst⟩,
      fun h => ⟨State.finish_of_gap_busy h gapClear, fun out => State.finish_of_gap_outside h gapClear out.1 out.2,
        fun st free hst => State.finish_of_gap_station h gapClear (Classical.not_not.mp free) hst⟩,
      fun h => ⟨State.finish_of_gap_busy h gapResetExtremes,
        fun out => State.finish_of_gap_outside h gapResetExtremes out.1 out.2,
        fun st free hst => State.finish_of_gap_station h gapResetExtremes (Classical.not_not.mp free) hst⟩⟩

/-! ## SENSE_CONFIG (R174) -/

@[simp] theorem Lines.line_setLine_same (l : Lines) (k : Line) (v : SenseLine) : (l.setLine k v).line k = v := by
  cases k <;> rfl

theorem Lines.line_setLine_other (l : Lines) {k m : Line} (v : SenseLine) (h : m ≠ k) :
    (l.setLine k v).line m = l.line m := by
  match k, m with
  | .breakLine, .breakLine | .catchLine, .catchLine | .guardLine, .guardLine => exact absurd rfl h
  | .breakLine, .catchLine | .breakLine, .guardLine | .catchLine, .breakLine | .catchLine, .guardLine
  | .guardLine, .breakLine | .guardLine, .catchLine => rfl

/-- Replacing one line leaves the others as they are. -/
theorem PerStation.line_modify_other (ls : PerStation Lines) {st j : St} {k m : Line} (v : SenseLine)
    (h : j ≠ st ∨ m ≠ k) :
    ((ls.modify st fun l => l.setLine k v).get j).line m = (ls.get j).line m := by
  by_cases same : j = st
  · subst same
    rw [PerStation.get_modify_same, Lines.line_setLine_other _ _ (h.resolve_left (not_not_intro rfl))]
  · rw [PerStation.get_modify_other _ _ _ _ same]

theorem lineOf_eq_none {b : Byte} (h : 2 < b.toNat) : lineOf b = none := by
  unfold lineOf
  split
  · omega
  · omega
  · omega
  · rfl

theorem edgeOf_eq_some {b : Byte} (h : b.toNat ≤ 1) : edgeOf b = some (if b.toNat = 0 then .rising else .falling) := by
  obtain h0 | h1 : b.toNat = 0 ∨ b.toNat = 1 := by omega
  · simp [edgeOf, h0]
  · simp [edgeOf, h1]

theorem edgeOf_eq_none {b : Byte} (h : 1 < b.toNat) : edgeOf b = none := by
  unfold edgeOf
  split
  · omega
  · omega
  · rfl

section

variable (a : Authority) {f : MgmtFrame} (s : State)

/-- A code that names no value: RANGE. -/
theorem senseConfig_of_bad (h : 3 < (byteAt f.args 0).toNat ∨ 2 < (byteAt f.args 1).toNat ∨ 1 < (byteAt f.args 2).toNat
    ∨ 1 < (byteAt f.args 3).toNat) : senseConfig a f s = s.answer f .range .empty := by
  unfold senseConfig
  split
  case h_1 st k enable edge hst hk henable hedge =>
    obtain b | b | b | b := h
    · simp [stationOf_eq_none b] at hst
    · simp [lineOf_eq_none b] at hk
    · simp [boolOf_eq_none b] at henable
    · simp [edgeOf_eq_none b] at hedge
  case h_2 => rfl

/-- Codes that name values: locked, or set. -/
theorem senseConfig_of_good {st : St} {k : Line} {enable : Bool} {edge : Edge}
    (hst : stationOf (byteAt f.args 0) = some st) (hk : lineOf (byteAt f.args 1) = some k)
    (henable : boolOf (byteAt f.args 2) = some enable) (hedge : edgeOf (byteAt f.args 3) = some edge) :
    senseConfig a f s =
      if s.senseLocked a st k enable edge then s.answer f .locked .empty
      else (s.setLine st k { enable := enable, edge := edge, level := (s.line st k).level }).answer f .ok
        (.line { enable := enable, edge := edge, level := (s.line st k).level }) := by
  simp only [senseConfig, hst, hk, henable, hedge]

theorem State.senseLocked_iff (st : St) (k : Line) (enable : Bool) (edge : Edge) :
    s.senseLocked a st k enable edge = true ↔ a = .planner ∧ k = .breakLine ∧ (s.works.station st).state ≠ .idle
      ∧ (enable ≠ (s.line st k).enable ∨ edge ≠ (s.line st k).edge) := by
  simp only [State.senseLocked, Bool.and_eq_true, Bool.or_eq_true, beq_iff_eq, bne_iff_ne, and_assoc, ne_comm]

end

/-- Settles O31: the range checks, the lock, and the one line replaced. -/
theorem senseConfigReplacesEnableAndEdge : Obligations.SenseConfigReplacesEnableAndEdge := by
  unfold Obligations.SenseConfigReplacesEnableAndEdge
  intro s a f rest h s0 bad
  have taken : exec .senseConfig s = .next (senseConfig a f s0).upstream := State.finish_of_offers h senseConfig
  rw [taken]
  refine ⟨fun hbad => ?bad, fun st k hgood hst hk => ?good⟩
  case bad => rw [senseConfig_of_bad a s0 hbad]
  intro l v locked
  have inRange : ¬1 < (byteAt f.args 2).toNat ∧ ¬1 < (byteAt f.args 3).toNat :=
    ⟨fun b => hgood (.inr (.inr (.inl b))), fun b => hgood (.inr (.inr (.inr b)))⟩
  rw [senseConfig_of_good a s0 hst hk (boolOf_eq_some (Nat.le_of_not_lt inRange.1))
    (edgeOf_eq_some (Nat.le_of_not_lt inRange.2))]
  refine ⟨fun hlocked => ?locked, fun hfree => ⟨s.lines.modify st fun ls => ls.setLine k v, ?set, ?same, ?other⟩⟩
  case locked => rw [if_pos ((State.senseLocked_iff a s0 st k v.enable v.edge).mpr hlocked)]
  case set =>
    rw [if_neg (mt (State.senseLocked_iff a s0 st k v.enable v.edge).mp hfree)]
    rfl
  case same => rw [PerStation.get_modify_same, Lines.line_setLine_same]
  case other => exact fun j m => PerStation.line_modify_other s.lines v

/-! ## The calibration store (R188, R189) -/

section

variable {a : Authority} {f : MgmtFrame} {s : State}

theorem storeRead_of_busy (h : s.store.writing ≠ none) : storeRead a f s = s.answer f .busy .empty :=
  if_pos (Option.isSome_iff_ne_none.mpr h)

theorem storeRead_of_free (h : s.store.writing = none) :
    storeRead a f s = s.answer f .ok (.storeRead s.store.gains s.store.valid) :=
  if_neg (by rw [h]; nofun)

theorem storeWrite_of_busy (h : s.store.writing ≠ none) : storeWrite a f s = s.answer f .busy .empty :=
  if_pos (Option.isSome_iff_ne_none.mpr h)

theorem storeWrite_of_planner (h : s.store.writing = none) : storeWrite .planner f s = s.answer f .locked .empty := by
  rw [storeWrite, if_neg (by rw [h]; nofun), if_pos rfl]

theorem storeWrite_of_bad (h : s.store.writing = none) (hg : gainsOf f.args = none) :
    storeWrite .service f s = s.answer f .range .empty := by
  rw [storeWrite, if_neg (by rw [h]; nofun), if_neg (by nofun), hg]

theorem storeWrite_of_gains {g : PerStation Nat} (h : s.store.writing = none) (hg : gainsOf f.args = some g) :
    storeWrite .service f s =
      { s with store := { s.store with valid := false, writing := some { tn := f.tn, gains := g } } } := by
  rw [storeWrite, if_neg (by rw [h]; nofun), if_neg (by nofun), hg]

end

/-- Settles O34: the answers of the two requests, and the end of a write. -/
theorem storeIsReadAndWritten : Obligations.StoreIsReadAndWritten := by
  unfold Obligations.StoreIsReadAndWritten
  intro s a f rest s0 g bad
  refine ⟨fun h => ?read, fun h => ?write, fun idle => ?idle, fun k busy => ?ends⟩
  case read =>
    have taken : exec .storeRead s = .next (storeRead a f s0).upstream := State.finish_of_offers h storeRead
    rw [taken]
    exact ⟨fun busy => by rw [storeRead_of_busy (s := s0) busy], fun free => by rw [storeRead_of_free (s := s0) free]⟩
  case write =>
    have taken : exec .storeWrite s = .next (storeWrite a f s0).upstream := State.finish_of_offers h storeWrite
    rw [taken]
    refine ⟨fun busy => ?_, fun free planner => ?_, fun free service hbad => ?_, fun free service hgood => ?_⟩
    · rw [storeWrite_of_busy (s := s0) busy]
    · rw [planner, storeWrite_of_planner (s := s0) free]
    · have none_read : gainsOf f.args = none := by
        refine if_neg ?_
        rintro ⟨h0, h1, h2, h3⟩
        have inside {i : Nat} (h : g i ≤ 4095) : ¬4095 < g i := Nat.not_lt.mpr h
        exact hbad.elim (inside h0) fun hbad => hbad.elim (inside h1) fun hbad => hbad.elim (inside h2) (inside h3)
      rw [service, storeWrite_of_bad (s := s0) free none_read]
    · have read : gainsOf f.args = some ⟨g 0, g 1, g 2, g 3⟩ := by
        simp only [bad, not_or, Nat.not_lt] at hgood
        exact if_pos hgood
      rw [service, storeWrite_of_gains (s := s0) free read]
      exact ⟨rfl, by simp [State.reserved, free, s0]⟩
  case idle => simp only [exec, execStoreWriteDone, State.writeEnds, idle, State.finish]
  case ends =>
    simp only [exec, execStoreWriteDone, State.writeEnds, busy, State.finish]
    rfl

end Sys2Proof.Machine
end

section
/-! PROOFS. The Gap Monitor's conversions and windows (R140, R147, R162 to R167, R170), level changes of the sense lines
(R173), and the expiry of a catch wait (R73). -/

namespace Sys2Proof.Machine

/-! ## The converter's choice (R163) -/

theorem GapMode.continuousMode_iff (m : GapMode) : m.continuousMode = true ↔ m = .continuous ∨ m = .continuousHold := by
  cases m <;> decide

theorem GapMonitor.eligible_iff (g : GapMonitor) (i : GapInput) :
    g.eligible i = true ↔ i = .reference ∨ ∃ st, i = .station st
      ∧ ((g.channels.get st).cfg.mode = .continuous ∨ (g.channels.get st).cfg.mode = .continuousHold) := by
  cases i with
  | reference => simp [GapMonitor.eligible]
  | station st => simp [GapMonitor.eligible, GapMode.continuousMode_iff]

theorem GapMonitor.choose_of_single {g : GapMonitor} {st : St} (h : g.pendingSingle = some st) :
    g.choose = { g with pendingSingle := none, inProgress := { input := .station st, single := true } } := by
  simp only [GapMonitor.choose, h]

theorem GapMonitor.choose_of_scan {g : GapMonitor} {i : GapInput} (h : g.pendingSingle = none)
    (found : (scanOrder g.scan).find? g.eligible = some i) :
    g.choose = { g with inProgress := { input := i, single := false }, scan := i.after } := by
  simp only [GapMonitor.choose, h, found, Option.getD_some]

/-- The scan order goes once around the five inputs. -/
theorem scanOrder_after (i : GapInput) : ∃ rest, scanOrder i = i :: rest ∧ scanOrder i.after = rest ++ [i] := by
  match i with
  | .station 0 | .station 1 | .station 2 | .station 3 | .reference => exact ⟨_, rfl, rfl⟩

/-- Settles O36: the pending single, else the first eligible input in scan order. -/
theorem converterChoosesSingleOrScan : Obligations.ConverterChoosesSingleOrScan := by
  unfold Obligations.ConverterChoosesSingleOrScan
  intro g eligible
  refine ⟨fun st => GapMonitor.choose_of_single, fun before i after free order skipped chosen => ?_, rfl, scanOrder_after⟩
  refine GapMonitor.choose_of_scan free (List.find?_eq_some_iff_append.mpr
    ⟨(g.eligible_iff i).mpr chosen, before, after, order, fun j hj => ?_⟩)
  rw [Bool.not_eq_true', Bool.eq_false_iff]
  exact mt (g.eligible_iff j).mp (skipped j hj)

/-! ## Windows (R164, R166, R167) -/

/-- Settles O37: a window that goes on, and one that closes. -/
theorem windowsGiveRatioExtremesAndAlarm : Obligations.WindowsGiveRatioExtremesAndAlarm := by
  unfold Obligations.WindowsGiveRatioExtremesAndAlarm
  intro c raw offset code shorts ratio
  refine ⟨fun more => if_neg (Nat.not_le_of_lt more), fun full => ⟨c.alarmAfter ratio, ?_, fun high => ?_,
    fun low mode => ?_, fun low mode => ?_⟩⟩
  · have closed : c.sample raw offset = { c with latest := some (raw, code) }.closeWindow shorts := if_pos full
    have maximum : max c.maximum ratio = if c.maximum < ratio then ratio else c.maximum := by split <;> omega
    have minimum : min c.minimum ratio = if ratio < c.minimum then ratio else c.minimum := by split <;> omega
    rw [closed, ← maximum, ← minimum]
    rfl
  · exact if_pos high
  · rw [GapChannel.alarmAfter, if_neg (Nat.not_le_of_lt low), mode]
  · rw [GapChannel.alarmAfter, if_neg (Nat.not_le_of_lt low), mode]

/-! ## A rise of the alarm (R140, R147) -/

theorem OpBody.isTailMove_iff (b : OpBody) :
    b.isTailMove = true ↔ ∃ m d off seg id k, b = .move m d off seg (.tailEntry id k) := by
  refine ⟨fun h => ?_, fun ⟨m, d, off, seg, id, k, hb⟩ => by rw [hb]; rfl⟩
  cases b with
  | move m d off seg work =>
    cases work with
    | tailEntry id k => exact ⟨m, d, off, seg, id, k, rfl⟩
    | _ => cases h
  | _ => cases h

theorem Works.current?_of_record {w : Works} {st : St} {id : Nat} {c : Contour} (h : (w.station st).current = some id)
    (hc : w.contour? id = some c) : w.current? st = some (id, c) := by
  simp only [Works.current?, h, hc, Option.map_some]

theorem Works.current?_eq_some_iff {w : Works} {st : St} {id : Nat} {c : Contour} :
    w.current? st = some (id, c) ↔ (w.station st).current = some id ∧ w.contour? id = some c := by
  refine ⟨fun h => ?_, fun ⟨h, hc⟩ => Works.current?_of_record h hc⟩
  unfold Works.current? at h
  split at h
  case h_1 => cases h
  case h_2 j hj =>
    obtain ⟨d, hd, heq⟩ := Option.map_eq_some_iff.mp h
    cases heq
    exact ⟨hj, hd⟩

section

variable {w : Works} {st : St}

theorem Works.gapRise_of_tail (h : (w.station st).pair.any (fun o => o.body.isTailMove) = true) :
    w.gapRise st = w.addHolds st { slug := true } none none := if_pos h

theorem Works.gapRise_of_main (ht : ¬(w.station st).pair.any (fun o => o.body.isTailMove) = true) {id : Nat} {c : Contour}
    (hp : (w.station st).tc.params.gapHold = true) (hc : w.current? st = some (id, c)) (hs : c.state = .cutting) :
    w.gapRise st = w.addHolds st { gap := true } none none := by
  simp only [Works.gapRise, if_neg ht, hc, if_pos (And.intro hp hs)]
  rfl

theorem Works.gapRise_of_neither (ht : ¬(w.station st).pair.any (fun o => o.body.isTailMove) = true)
    (hm : ∀ id c, (w.station st).tc.params.gapHold = true → w.current? st = some (id, c) → c.state ≠ .cutting) :
    w.gapRise st = w := by
  simp only [Works.gapRise, if_neg ht]
  split
  case h_1 id c hc => exact if_neg fun both => hm id c both.1 hc both.2
  case h_2 => rfl

end

/-! ## The end of a conversion (R164, R170) -/

section

variable {s : State} {st : St} (raw : BitVec 12)

theorem exec_conversionEnd (s : State) :
    exec (.conversionEnd raw) s =
      .next ({ s.takeConversion raw.toNat with gap := (s.takeConversion raw.toNat).gap.choose } : State).upstream := rfl

theorem State.takeConversion_reference (h : s.gap.inProgress.input = .reference) :
    s.takeConversion raw.toNat = { s with gap := { s.gap with offset := raw.toNat } } := by
  simp only [State.takeConversion, h]

theorem State.takeConversion_scan (h : s.gap.inProgress.input = .station st) (hs : s.gap.inProgress.single = false) :
    s.takeConversion raw.toNat = s.scanEnds st raw.toNat := by
  simp only [State.takeConversion, h, hs]

theorem State.takeConversion_single (h : s.gap.inProgress.input = .station st) (hs : s.gap.inProgress.single = true) :
    s.takeConversion raw.toNat = s.singleEnds st raw.toNat := by
  simp only [State.takeConversion, h, hs]

/-- A SCAN in a mode that is not continuous is discarded. -/
theorem State.scanEnds_of_off (h : ¬(s.gap.channels.get st).cfg.mode.continuousMode = true) (v : Nat) :
    s.scanEnds st v = s := if_neg h

/-- A SCAN in a continuous mode is counted, and a rise of the alarm told. -/
theorem State.scanEnds_of_continuous (h : (s.gap.channels.get st).cfg.mode.continuousMode = true) (v : Nat) :
    s.scanEnds st v =
      { s with
        gap := s.gap.modChannel st fun _ => (s.gap.channels.get st).sample v s.gap.offset
        works :=
          if ((s.gap.channels.get st).sample v s.gap.offset).alarm = true ∧ (s.gap.channels.get st).alarm = false then
            s.works.alarmRise st
          else s.works } := by
  simp only [State.scanEnds, if_pos h, Bool.and_eq_true, Bool.not_eq_true']
  split
  case isTrue => rfl
  case isFalse => rfl

end

/-- Settles O35: the rise of an alarm at the sequencer, and the four kinds of conversion. -/
theorem conversionEndTakesTheResult : Obligations.ConversionEndTakesTheResult := by
  unfold Obligations.ConversionEndTakesTheResult
  refine ⟨fun w st => ?rise, fun s raw => ?conversion⟩
  case rise =>
    intro x tail main
    have tail_iff : (w.station st).pair.any (fun o => o.body.isTailMove) = true ↔ tail := by
      simp only [List.any_eq_true, OpBody.isTailMove_iff, tail, x]
    refine ⟨fun htail => Works.gapRise_of_tail (tail_iff.mpr htail), fun htail hmain => ?_, fun htail hmain => ?_⟩
    · obtain ⟨hp, id, c, hcur, hc, hs⟩ := hmain
      exact Works.gapRise_of_main (mt tail_iff.mp htail) hp (Works.current?_of_record hcur hc) hs
    · refine Works.gapRise_of_neither (mt tail_iff.mp htail) fun id c hp hcur hs => hmain ?_
      obtain ⟨hid, hc⟩ := Works.current?_eq_some_iff.mp hcur
      exact ⟨hp, id, c, hid, hc, hs⟩
  case conversion =>
    intro p scanned counted
    rw [exec_conversionEnd]
    refine ⟨fun hin => ?reference, fun st hin => ?station⟩
    case reference => rw [State.takeConversion_reference raw hin]
    case station =>
      intro ch continuous
      refine ⟨fun hscan off => ?off, fun hscan on norise => ?quiet, fun hscan on rise => ?rise, fun g hsingle hg => ?single⟩
      case off =>
        rw [State.takeConversion_scan raw hin hscan, State.scanEnds_of_off (mt (GapMode.continuousMode_iff _).mp off)]
      case quiet =>
        rw [State.takeConversion_scan raw hin hscan, State.scanEnds_of_continuous ((GapMode.continuousMode_iff _).mpr on),
          if_neg norise]
        rfl
      case rise =>
        rw [State.takeConversion_scan raw hin hscan, State.scanEnds_of_continuous ((GapMode.continuousMode_iff _).mpr on),
          if_pos rise]
        rfl
      case single =>
        rw [State.takeConversion_single raw hin hsingle]
        simp only [State.singleEnds, hg]
        rfl

/-! ## Level changes (R173) -/

theorem SenseLine.delivers_iff (l : SenseLine) (level : Level) :
    l.delivers level = true ↔ l.enable = true ∧ l.level ≠ l.edge.activeLevel ∧ level = l.edge.activeLevel := by
  simp only [SenseLine.delivers, Bool.and_eq_true, bne_iff_ne, beq_iff_eq, and_assoc]

section

variable {s : State} {st : St} {k : Line} {level : Level}

theorem State.sample_of_edge (h : (s.line st k).delivers level = true) :
    s.sample st k level = (s.setLine st k { s.line st k with level := level }).onWorks fun w => w.edge st k := if_pos h

theorem State.sample_of_no_edge (h : ¬(s.line st k).delivers level = true) :
    s.sample st k level = s.setLine st k { s.line st k with level := level } := if_neg h

end

/-- Settles O38: the level is sampled, and an active edge goes to the block of its line. -/
theorem levelChangesDeliverActiveEdges : Obligations.LevelChangesDeliverActiveEdges := by
  unfold Obligations.LevelChangesDeliverActiveEdges
  intro s st k level l active s1 edge
  have active_eq : active = l.edge.activeLevel := rfl
  have edge_iff : (s.line st k).delivers level = true ↔ edge := by
    rw [SenseLine.delivers_iff, ← active_eq]
  have delivered (h : edge) : exec (.senseLevelChange st k level) s = .next (s1.onWorks fun w => w.edge st k).upstream :=
    congrArg (fun t : State => t.finish) (State.sample_of_edge (edge_iff.mpr h))
  refine ⟨fun none => ?none, ?_, ?_, ?_, ?_, ?_, ?_, ?same, fun j m => PerStation.line_modify_other s.lines _⟩
  case none => exact congrArg (fun t : State => t.finish) (State.sample_of_no_edge (mt edge_iff.mp none))
  case same =>
    change ((s.lines.modify st _).get st).line k = _
    rw [PerStation.get_modify_same, Lines.line_setLine_same]
  iterate 3
    · intro h hk
      rw [delivered h, hk]
      rfl
  all_goals
    intro hk
    rw [active_eq]
    subst hk
    rfl

/-! ## The expiry of a catch wait (R73) -/

/-- The time left is 0 once the wait has fallen due. -/
theorem catchRemaining_eq_zero_iff (e now : Time) :
    catchRemaining e now = 0 ↔ (e - now).toNat = 0 ∨ 25500000 < (e - now).toNat := by
  have longest : Config.longestCatchWait = 25500000 := rfl
  simp only [catchRemaining, longest]
  split <;> omega

/-- Settles O42: no wait, one fallen due, and one still to run. -/
theorem catchWaitExpiryAddsNoCatch : Obligations.CatchWaitExpiryAddsNoCatch := by
  unfold Obligations.CatchWaitExpiryAddsNoCatch
  intro s st
  have expiry : exec (.catchWaitExpiry st) s = .next ({ s with works := s.works.catchExpiry st } : State).upstream := rfl
  rw [expiry]
  refine ⟨fun disarmed => ?_, fun e armed => ⟨fun due => ?_, fun more less => ?_⟩⟩
  · simp only [Works.catchExpiry, disarmed]
  · simp only [Works.catchExpiry, armed, if_pos ((catchRemaining_eq_zero_iff e s.works.time).mpr due)]
    rfl
  · have running : ¬catchRemaining e s.works.time = 0 := by
      rw [catchRemaining_eq_zero_iff]
      omega
    simp only [Works.catchExpiry, armed, if_neg running]

end Sys2Proof.Machine
end

section
/-! PROOFS. RESUME and CONFIRM (R146, R149, R151, R152), the completion of a contour (R74), and the CATCH and GUARD lines
(R73, R141, R147, R148). -/

namespace Sys2Proof.Machine

/-! ## The current contour -/

/-- A change of the station that keeps its current contour keeps the contour and its record. -/
theorem Works.current?_upd {w : Works} {st : St} {f : Station → Station}
    (h : (f (w.station st)).current = (w.station st).current) : (w.upd st f).current? st = w.current? st := by
  simp only [Works.current?, Works.station_upd_same, h, Works.contour?_upd]

/-! ## Becoming ACTIVE again (R146) -/

section

variable {w : Works} {st : St} (why : Clearing)

theorem Works.resumeIfClear_of_clear (held : (w.station st).state = .held) (clear : (w.station st).holds = Holds.none) :
    w.resumeIfClear st why =
      (w.upd st fun x => { x with state := .active }).report st
        (.resumed why (w.station st).activity (w.station st).current) := if_pos ⟨held, clear⟩

theorem Works.resumeIfClear_of_not (h : (w.station st).state ≠ .held ∨ (w.station st).holds ≠ Holds.none) :
    w.resumeIfClear st why = w :=
  if_neg fun both => h.elim (fun state => state both.1) fun holds => holds both.2

end

/-! ## RESUME (R151) -/

theorem SenseLine.isActive_iff (l : SenseLine) :
    l.isActive = true ↔ (l.edge = .rising ∧ l.level = .high) ∨ (l.edge = .falling ∧ l.level = .low) := by
  cases he : l.edge <;> simp [SenseLine.isActive, Edge.activeLevel, he]

/-- RESUME has something to clear. -/
theorem Holds.inter_resumable_iff (h : Holds) :
    h.inter Holds.resumable ≠ Holds.none ↔ h.request = true ∨ h.guard = true ∨ h.straySlug = true ∨ h.slug = true
      ∨ h.gap = true ∨ h.driveFault = true := by
  simp only [Holds.inter, Holds.zip, Holds.resumable, Holds.none, ne_eq, Holds.mk.injEq, Bool.and_true, Bool.and_false,
    and_true, Classical.not_and_iff_not_or_not, Bool.not_eq_false]

/-- What RESUME leaves. -/
theorem Holds.without_resumable (h : Holds) :
    h.without Holds.resumable
      = { noCatch := h.noCatch, partRemoval := h.partRemoval, contourFailed := h.contourFailed } := by
  simp [Holds.without, Holds.zip, Holds.resumable]

section

variable {st : St} {s : State}

theorem judgeResume_of_not_held (h : (s.works.station st).state ≠ .held) : judgeResume st s = .error .state := if_pos h

theorem judgeResume_of_guarded (h : (s.works.station st).state = .held)
    (guarded : (s.works.station st).holds.guard = true ∧ (s.lines.get st).guardLine.isActive = true) :
    judgeResume st s = .error .locked := by
  simp only [judgeResume, if_neg (not_not_intro h), if_pos guarded]

/-- Neither of the two refusals: RESUME removes its reasons when it finds any. -/
theorem judgeResume_of_free (h : (s.works.station st).state = .held)
    (guarded : ¬((s.works.station st).holds.guard = true ∧ (s.lines.get st).guardLine.isActive = true)) :
    judgeResume st s =
      if (s.works.station st).holds.inter Holds.resumable = Holds.none then .error .state
      else .ok (((s.works.removeHolds st Holds.resumable).resumeIfClear st .resume).settle st) := by
  simp only [judgeResume, if_neg (not_not_intro h), if_neg guarded]

end

/-- The six reasons gone from a HELD station, which is ACTIVE when none is left. -/
theorem Works.resume_removes {w : Works} {st : St} {left : Holds} (held : (w.station st).state = .held)
    (hleft : (w.station st).holds.without Holds.resumable = left) :
    (w.removeHolds st Holds.resumable).resumeIfClear st .resume =
      if left = Holds.none then
        (w.upd st fun x => { x with holds := left, state := .active }).report st
          (.resumed .resume (w.station st).activity (w.station st).current)
      else w.upd st fun x => { x with holds := left } := by
  have removed : w.removeHolds st Holds.resumable = w.upd st fun x => { x with holds := left } :=
    Works.upd_congr _ _ (by rw [hleft])
  rw [removed]
  split
  case isTrue none =>
    rw [Works.resumeIfClear_of_clear .resume (by rw [Works.station_upd_same]; exact held)
      (by rw [Works.station_upd_same]; exact none), Works.upd_upd, Works.station_upd_same]
  case isFalse some =>
    rw [Works.resumeIfClear_of_not .resume (.inr (by rw [Works.station_upd_same]; exact some))]

/-- Settles O17: the refusals in order, and the reasons removed. -/
theorem resumeClearsItsReasons : Obligations.ResumeClearsItsReasons := by
  unfold Obligations.ResumeClearsItsReasons
  intro s a f rest h s0
  refine ⟨State.finish_of_no_station h _, fun st hst => ?_⟩
  intro x g guarded clears left w w'
  have guarded_iff : (x.holds.guard = true ∧ g.isActive = true) ↔ guarded := by rw [g.isActive_iff]
  have clears_iff : x.holds.inter Holds.resumable ≠ Holds.none ↔ clears := Holds.inter_resumable_iff x.holds
  refine ⟨fun notHeld => ?_, fun held on => ?_, fun held off none => ?_, fun held off some => ?_⟩
  · exact State.finish_of_refused h hst (judgeResume_of_not_held (s := s0) notHeld)
  · exact State.finish_of_refused h hst (judgeResume_of_guarded (s := s0) held (guarded_iff.mpr on))
  · refine State.finish_of_refused h hst ((judgeResume_of_free (s := s0) held (mt guarded_iff.mp off)).trans ?_)
    exact if_pos (Classical.not_not.mp (mt clears_iff.mp none))
  · refine State.finish_of_accepted h hst ((judgeResume_of_free (s := s0) held (mt guarded_iff.mp off)).trans ?_)
    refine (if_neg (clears_iff.mpr some)).trans ?_
    exact congrArg (fun v : Works => Except.ok (v.settle st)) (Works.resume_removes held (Holds.without_resumable x.holds))

/-! ## Completing a closing (R74) -/

section

variable {w : Works} {st : St}

theorem Works.tryComplete_of_ready {id : Nat} {c : Contour} {k : Closing} (hc : w.current? st = some (id, c))
    (hk : (w.station st).closing = some k) (hs : c.state = .closing) (hf : c.prog.pendingFailure = none)
    (hcut : k.cutReceived = true) (hsat : k.satisfied = true) : w.tryComplete st = w.complete st id := by
  simp only [Works.tryComplete, hc, hk, if_pos (And.intro hs (And.intro hf (And.intro hcut hsat)))]

theorem Works.tryComplete_of_not
    (h : ∀ id c k, w.current? st = some (id, c) → (w.station st).closing = some k →
      ¬(c.state = .closing ∧ c.prog.pendingFailure = none ∧ k.cutReceived = true ∧ k.satisfied = true)) :
    w.tryComplete st = w := by
  unfold Works.tryComplete
  split
  case h_1 id c k hc hk => exact if_neg (h id c k hc hk)
  case h_2 => rfl

/-- A station whose closing has just been satisfied: the closing completes if its CUT has come and no failure is pending. -/
theorem Works.tryComplete_of_satisfied {id : Nat} {c : Contour} {k : Closing} {f : Station → Station}
    (hcur : (f (w.station st)).current = (w.station st).current)
    (hclo : (f (w.station st)).closing = (w.station st).closing.map fun k => { k with satisfied := true })
    (hi : (w.station st).current = some id) (hc : w.contour? id = some c) (hk : (w.station st).closing = some k)
    (hs : c.state = .closing) (hf : c.prog.pendingFailure = none) (hcut : k.cutReceived = true) :
    (w.upd st f).tryComplete st = (w.upd st f).complete st id := by
  refine Works.tryComplete_of_ready (k := { k with satisfied := true }) ?_ ?_ hs hf hcut rfl
  · rw [Works.current?_upd hcur, Works.current?_of_record hi hc]
  · rw [Works.station_upd_same, hclo, hk, Option.map_some]

/-- With the CUT still to come, no closing contour or a pending failure, a satisfied closing stays. -/
theorem Works.tryComplete_of_waiting {f : Station → Station}
    (hcur : (f (w.station st)).current = (w.station st).current)
    (hclo : (f (w.station st)).closing = (w.station st).closing.map fun k => { k with satisfied := true })
    (h : (∀ id c, (w.station st).current = some id → w.contour? id = some c →
        c.state ≠ .closing ∨ c.prog.pendingFailure ≠ none)
      ∨ ∀ k, (w.station st).closing = some k → k.cutReceived = false) :
    (w.upd st f).tryComplete st = w.upd st f := by
  refine Works.tryComplete_of_not fun id c k hc hk ⟨hs, hf, hcut, _⟩ => ?_
  rw [Works.current?_upd hcur] at hc
  rw [Works.station_upd_same, hclo] at hk
  obtain ⟨hi, hc⟩ := Works.current?_eq_some_iff.mp hc
  obtain ⟨k0, hk0, rfl⟩ := Option.map_eq_some_iff.mp hk
  obtain record | closing := h
  · exact (record id c hi hc).elim (fun other => other hs) fun failing => failing hf
  · exact absurd ((closing k0 hk0).symm.trans hcut) nofun

end

/-! ## CONFIRM (R152) -/

theorem Holds.inter_confirmable_iff (h : Holds) :
    h.inter Holds.confirmable ≠ Holds.none ↔ h.noCatch = true ∨ h.partRemoval = true := by
  simp only [Holds.inter, Holds.zip, Holds.confirmable, Holds.none, ne_eq, Holds.mk.injEq, Bool.and_true, Bool.and_false,
    and_true, true_and, Classical.not_and_iff_not_or_not, Bool.not_eq_false]

theorem Holds.without_confirmable (h : Holds) :
    h.without Holds.confirmable = { h with noCatch := false, partRemoval := false } := by
  simp [Holds.without, Holds.zip, Holds.confirmable]

/-- The two reasons gone and the closing satisfied, as one change of the station. -/
theorem Works.confirm_satisfies (w : Works) (st : St) :
    (w.removeHolds st Holds.confirmable).upd st Station.satisfy = w.upd st fun x =>
      { x with
        holds := { x.holds with noCatch := false, partRemoval := false }
        catchWait := none
        closing := x.closing.map fun k => { k with satisfied := true } } := by
  rw [Works.removeHolds, Works.upd_upd]
  refine Works.upd_congr _ _ ?_
  rw [Station.satisfy, Holds.without_confirmable]

/-- Settles O18: the refusals, and the closing that an accepted CONFIRM satisfies. -/
theorem confirmSatisfiesTheClosing : Obligations.ConfirmSatisfiesTheClosing := by
  unfold Obligations.ConfirmSatisfiesTheClosing
  refine ⟨fun w st why => ⟨Works.resumeIfClear_of_clear why, Works.resumeIfClear_of_not why⟩, fun s a f rest h => ?_⟩
  intro s0
  refine ⟨State.finish_of_no_station h _, fun st hst => ?_⟩
  intro x waits w1
  have waits_iff : x.holds.inter Holds.confirmable ≠ Holds.none ↔ waits := Holds.inter_confirmable_iff x.holds
  refine ⟨fun refused => ?refused, fun working hwaits => ⟨w1.tryComplete st, ?ready, ?waiting, ?taken⟩⟩
  case refused =>
    refine State.finish_of_refused h hst (if_pos ?_)
    obtain idle | aborting | none := refused
    · exact .inl ((Station.not_working_iff _).mpr (.inl idle))
    · exact .inl ((Station.not_working_iff _).mpr (.inr aborting))
    · exact .inr (Classical.not_not.mp (mt waits_iff.mp none))
  case ready =>
    exact fun id c k hi hc hk hs hf hcut => Works.tryComplete_of_satisfied rfl rfl hi hc hk hs hf hcut
  case waiting =>
    exact fun h => Works.tryComplete_of_waiting rfl rfl h
  case taken =>
    have accepted : judgeConfirm st s0 = .ok (((w1.tryComplete st).resumeIfClear st .confirm).settle st) := by
      have passes : ¬(x.working = false ∨ x.holds.inter Holds.confirmable = Holds.none) := by
        rintro (idle | none)
        · exact absurd (idle.symm.trans ((Station.working_iff x).mpr working)) nofun
        · exact waits_iff.mpr hwaits none
      refine (if_neg passes).trans ?_
      rw [Works.confirm_satisfies]
    exact State.finish_of_accepted h hst accepted

/-! ## CATCH and GUARD (R73, R141, R147, R148) -/

/-- A line that goes from its inactive to its active level with its enable ON delivers its edge. -/
theorem State.goActive_of_edge {s : State} {st : St} {k : Line} (on : (s.line st k).enable = true)
    (off : (s.line st k).isActive = false) :
    s.goActive st k =
      { s.setLine st k { s.line st k with level := (s.line st k).edge.activeLevel } with works := s.works.edge st k } := by
  have inactive : (s.line st k).level ≠ (s.line st k).edge.activeLevel := beq_eq_false_iff_ne.mp off
  exact State.sample_of_edge ((SenseLine.delivers_iff _ _).mpr ⟨on, inactive, rfl⟩)

theorem Works.tabHeld_iff (w : Works) (st : St) :
    w.tabHeld st = true ↔ ∃ id c, (w.station st).current = some id ∧ w.contour? id = some c
      ∧ ((c.state = .cutting ∧ c.plan.tabOrdinal? ≠ none) ∨ c.state = .tabCutting) := by
  unfold Works.tabHeld
  split
  case h_1 none =>
    refine iff_of_false nofun fun ⟨id, c, hi, hc, _⟩ => ?_
    exact absurd (none.symm.trans (Works.current?_of_record hi hc)) nofun
  case h_2 id c hc =>
    obtain ⟨hi, hrec⟩ := Works.current?_eq_some_iff.mp hc
    simp only [Bool.or_eq_true, Bool.and_eq_true, beq_iff_eq, Option.isSome_iff_ne_none]
    refine ⟨fun held => ⟨id, c, hi, hrec, held⟩, fun ⟨id', c', hi', hc', held⟩ => ?_⟩
    obtain rfl : id = id' := Option.some.inj (hi.symm.trans hi')
    obtain rfl : c = c' := Option.some.inj (hrec.symm.trans hc')
    exact held

section

variable {w : Works} {st : St}

theorem Works.catchEdge_of_not_working (h : (w.station st).state = .idle ∨ (w.station st).state = .aborting) :
    w.catchEdge st = w := if_pos ((Station.not_working_iff _).mpr h)

theorem Works.catchEdge_of_working (h : (w.station st).state = .active ∨ (w.station st).state = .held) :
    w.catchEdge st =
      if (w.station st).catchWait.isSome then ((w.upd st Station.satisfy).tryComplete st).settle st
      else if w.tabHeld st then w.addHolds st (Holds.only .straySlug) none none else w := by
  have working : ¬(w.station st).working = false := by
    rw [(Station.working_iff _).mpr h]
    nofun
  simp only [Works.catchEdge, if_neg working]

/-- An armed wait is satisfied. -/
theorem Works.catchEdge_of_armed {e : Time} (h : (w.station st).state = .active ∨ (w.station st).state = .held)
    (armed : (w.station st).catchWait = some e) :
    w.catchEdge st = ((w.upd st Station.satisfy).tryComplete st).settle st := by
  rw [Works.catchEdge_of_working h, armed]
  rfl

/-- Without a wait the edge is a stray slug when a tabbed part should be held, and nothing otherwise. -/
theorem Works.catchEdge_of_disarmed (h : (w.station st).state = .active ∨ (w.station st).state = .held)
    (disarmed : (w.station st).catchWait = none) :
    w.catchEdge st = if w.tabHeld st then w.addHolds st (Holds.only .straySlug) none none else w := by
  rw [Works.catchEdge_of_working h, disarmed]
  rfl

end

/-- Settles O40: the GUARD edge, and the CATCH edge by station state, armed wait and closing. -/
theorem catchAndGuardEdgesActOnTheStation : Obligations.CatchAndGuardEdgesActOnTheStation := by
  unfold Obligations.CatchAndGuardEdgesActOnTheStation
  intro s st x g l
  refine ⟨fun on off => ?guard, fun on off => ?catchLine⟩
  case guard => exact congrArg (fun t : State => t.finish) (State.goActive_of_edge on off)
  case catchLine =>
    intro s1 held w1
    have delivered : exec (.catchEdge st) s = .next ({ s1 with works := s.works.catchEdge st } : State).upstream :=
      congrArg (fun t : State => t.finish) (State.goActive_of_edge on off)
    rw [delivered]
    have held_iff : s.works.tabHeld st = true ↔ held := s.works.tabHeld_iff st
    refine ⟨fun disregarded => ?nothing, fun working disarmed hheld => ?stray, fun e working armed open_ => ?noClosing,
      fun e k working armed closing => ⟨fun waiting => ?waiting, fun id c hcut hi hc hs hf => ?completes⟩⟩
    case nothing =>
      have same : s.works.catchEdge st = s.works := by
        obtain idle | aborting | ⟨disarmed, free⟩ := disregarded
        · exact Works.catchEdge_of_not_working (.inl idle)
        · exact Works.catchEdge_of_not_working (.inr aborting)
        · by_cases working : (s.works.station st).working = true
          · rw [Works.catchEdge_of_disarmed ((Station.working_iff _).mp working) disarmed,
              if_neg (mt held_iff.mp free)]
          · exact Works.catchEdge_of_not_working ((Station.not_working_iff _).mp (Bool.eq_false_iff.mpr working))
      rw [same]
      rfl
    case stray =>
      rw [Works.catchEdge_of_disarmed working disarmed, if_pos (held_iff.mpr hheld)]
      rfl
    case noClosing =>
      have waits : w1.tryComplete st = w1 :=
        Works.tryComplete_of_waiting rfl rfl (.inr fun k hk => absurd (open_.symm.trans hk) nofun)
      rw [Works.catchEdge_of_armed working armed]
      exact congrArg (fun v : Works => Host.Outcome.next ({ s1 with works := v.settle st } : State).upstream) waits
    case waiting =>
      have waits : w1.tryComplete st = w1 := by
        refine Works.tryComplete_of_waiting rfl rfl ?_
        obtain uncut | record := waiting
        · exact .inr fun k' hk' => by rwa [← Option.some.inj (closing.symm.trans hk')]
        · exact .inl record
      rw [Works.catchEdge_of_armed working armed]
      exact congrArg (fun v : Works => Host.Outcome.next ({ s1 with works := v.settle st } : State).upstream) waits
    case completes =>
      have done : w1.tryComplete st = w1.complete st id :=
        Works.tryComplete_of_satisfied rfl rfl hi hc closing hs hf hcut
      rw [Works.catchEdge_of_armed working armed]
      exact congrArg (fun v : Works => Host.Outcome.next ({ s1 with works := v.settle st } : State).upstream) done

end Sys2Proof.Machine
end

section
/-! PROOFS. The Kerf Record Store's grants, waits and releases (R65, R81, R86 to R90), and what the completion of a contour
leaves (R74, R137). -/

namespace Sys2Proof.Machine

/-! ## A round of the arbiter (R89, R90) -/

/-- What a round does with station `g`: serves it when it waits, its need fits and its contour is entered. -/
def Works.served (w : Works) (g : St) : Option Works :=
  match w.pool.waiting.get g with
  | none => none
  | some r =>
    if r.need ≤ w.pool.free ∧ w.isEntering r.contour = true then
      some ((w.grant g r.contour r.need).upd g fun x => { x with activity := .entering })
    else none

/-- A round serves the first station in rotation that it can. -/
theorem Works.arbiterRound_eq (w : Works) : w.arbiterRound = (rotation w.pool.lastGranted).findSome? w.served := rfl

theorem Works.isEntering_iff (w : Works) (id : Nat) :
    w.isEntering id = true ↔ ∃ c, w.contour? id = some c ∧ c.state = .entering := by
  refine ⟨Works.isEntering_some, fun ⟨c, hc, hs⟩ => ?_⟩
  simp [Works.isEntering, hc, hs]

section

variable {w : Works}

theorem Works.served_eq_none {g : St}
    (h : ∀ r, w.pool.waiting.get g = some r →
      w.pool.free < r.need ∨ ¬∃ c, w.contour? r.contour = some c ∧ c.state = .entering) : w.served g = none := by
  unfold Works.served
  split
  case h_1 => rfl
  case h_2 r hr =>
    refine if_neg fun ⟨fits, entering⟩ => ?_
    exact (h r hr).elim (Nat.not_lt_of_le fits) fun other => other ((w.isEntering_iff _).mp entering)

theorem Works.served_eq_some {g : St} {r : Waiting} (hr : w.pool.waiting.get g = some r) (fits : r.need ≤ w.pool.free)
    (entering : ∃ c, w.contour? r.contour = some c ∧ c.state = .entering) :
    w.served g = some ((w.grant g r.contour r.need).upd g fun x => { x with activity := .entering }) := by
  simp only [Works.served, hr, if_pos (And.intro fits ((w.isEntering_iff _).mpr entering))]

/-- With no waiting station to serve a round does nothing. -/
theorem Works.arbiterRound_eq_none
    (h : ∀ g r, w.pool.waiting.get g = some r →
      w.pool.free < r.need ∨ ¬∃ c, w.contour? r.contour = some c ∧ c.state = .entering) : w.arbiterRound = none := by
  rw [Works.arbiterRound_eq, List.findSome?_eq_none_iff]
  exact fun g _ => Works.served_eq_none (h g)

theorem Works.arbiterRound_of_first {before after : List St} {g : St} {r : Waiting}
    (order : rotation w.pool.lastGranted = before ++ g :: after)
    (skipped : ∀ b ∈ before, ∀ q, w.pool.waiting.get b = some q →
      w.pool.free < q.need ∨ ¬∃ c, w.contour? q.contour = some c ∧ c.state = .entering)
    (hr : w.pool.waiting.get g = some r) (fits : r.need ≤ w.pool.free)
    (entering : ∃ c, w.contour? r.contour = some c ∧ c.state = .entering) :
    w.arbiterRound = some ((w.grant g r.contour r.need).upd g fun x => { x with activity := .entering }) := by
  have before_none : before.findSome? w.served = none :=
    List.findSome?_eq_none_iff.mpr fun b hb => Works.served_eq_none (skipped b hb)
  rw [Works.arbiterRound_eq, order, List.findSome?_append, before_none, Option.none_or, List.findSome?_cons,
    Works.served_eq_some hr fits entering]

theorem Works.arbiterRounds_of_none (n : Nat) (h : w.arbiterRound = none) : Works.arbiterRounds n w = w := by
  cases n with
  | zero => rfl
  | succ n => simp only [Works.arbiterRounds, h]

end

/-! ## Release (R88) -/

section

variable {w : Works} {id : Nat} {c : Contour}

/-- The contour's marks reported, its entries removed and its slots free, before the arbiter looks at the waiting set. -/
def Works.freed (w : Works) (id : Nat) (c : Contour) : Works :=
  { (w.markReports c.cfg.station (c.kerf.filterMap (KerfEntry.mark id)) .discarded).modContour id
      fun c => { c with kerf := [], prog := { c.prog with reservation := 0 } } with
    pool := { w.pool with free := w.pool.free + c.prog.reservation } }

theorem Works.release_of_reserved (h : w.contour? id = some c) (hr : c.prog.reservation ≠ 0) :
    w.release id = Works.arbiterRounds 4 (w.freed id c) := by
  simp only [Works.release, h, if_neg hr, Works.modContour_pool, Works.markReports_pool]
  rfl

/-- With nobody waiting the slots only return. -/
theorem Works.release_of_unwaited (h : w.contour? id = some c) (hr : c.prog.reservation ≠ 0)
    (hw : ∀ g, w.pool.waiting.get g = none) : w.release id = w.freed id c := by
  rw [Works.release_of_reserved h hr]
  exact Works.arbiterRounds_of_none 4 (Works.arbiterRound_eq_none fun g r hg => absurd ((hw g).symm.trans hg) nofun)

theorem Works.freed_contour?_same (h : w.contour? id = some c) :
    (w.freed id c).contour? id = some { c with kerf := [], prog := { c.prog with reservation := 0 } } := by
  have marked : (w.markReports c.cfg.station (c.kerf.filterMap (KerfEntry.mark id)) .discarded).contour? id = some c := by
    rw [Works.contour?_congr (Works.markReports_contours _ _ _ _), h]
  exact (Works.contour?_modContour_same _ id _).trans (by rw [marked]; rfl)

theorem Works.freed_contour?_other {j : Nat} (hj : j ≠ id) : (w.freed id c).contour? j = w.contour? j :=
  (Works.contour?_modContour_other _ id j _ hj).trans (Works.contour?_congr (Works.markReports_contours _ _ _ _) j)

/-- After a release no waiting station's need fits. -/
theorem Works.release_leaves_no_fit (h : w.contour? id = some c) (hr : c.prog.reservation ≠ 0) {g : St} {r : Waiting}
    (hg : (w.release id).pool.waiting.get g = some r)
    (entering : ∃ c, (w.release id).contour? r.contour = some c ∧ c.state = .entering) :
    (w.release id).pool.free < r.need := by
  refine Works.arbiterRound_none ?_ hg ((Works.isEntering_iff _ _).mpr entering)
  rw [Works.release_of_reserved h hr]
  exact Works.arbiterRounds_served 4 _ (Works.waitingCount_le _)

/-- A release of a contour without marks changes of a station at most its activity. -/
theorem Works.release_station_unmarked (h : w.contour? id = some c) (hm : ∀ e ∈ c.kerf, e.handle = none) (j : St) :
    ∃ act, (w.release id).station j = { w.station j with activity := act } := by
  by_cases hr : c.prog.reservation = 0
  · exact ⟨(w.station j).activity, by rw [Works.release_of_none h hr]⟩
  · have unmarked : c.kerf.filterMap (KerfEntry.mark id) = [] :=
      List.filterMap_eq_nil_iff.mpr fun e he => by rw [KerfEntry.mark, hm e he, Option.map_none]
    rw [Works.release_of_reserved h hr]
    obtain ⟨act, hact⟩ := Works.arbiterRounds_station 4 (w.freed id c) j
    refine ⟨act, hact.trans ?_⟩
    rw [Works.freed, unmarked]
    rfl

/-- With nobody waiting a release only adds to the free slots. -/
theorem Works.release_pool_of_unwaited (h : w.contour? id = some c) (hw : ∀ g, w.pool.waiting.get g = none) :
    (w.release id).pool = { w.pool with free := w.pool.free + c.prog.reservation } := by
  by_cases hr : c.prog.reservation = 0
  · rw [Works.release_of_none h hr, hr]
    rfl
  · rw [Works.release_of_unwaited h hr hw]
    rfl

end

/-- Settles O52: request, release and round of the arbiter, each from its lemmas. -/
theorem reservationsAreGrantedWholeOrWait : Obligations.ReservationsAreGrantedWholeOrWait := by
  unfold Obligations.ReservationsAreGrantedWholeOrWait
  intro w st id need granted entering
  refine ⟨fun fits => ⟨if_pos fits, fun ⟨c, hc⟩ => Works.slots_requestReservation st need hc⟩,
    fun short => if_neg (Nat.not_le_of_lt short),
    fun c hc => ⟨Works.release_of_none hc, fun hr => ⟨Works.slots_release w id, fun g r => Works.release_leaves_no_fit hc hr,
      fun hw => ?released⟩⟩,
    Works.arbiterRound_eq_none,
    fun before g after r order skipped hr fits entered => Works.arbiterRound_of_first order skipped hr fits entered⟩
  case released =>
    rw [Works.release_of_unwaited hc hr hw]
    exact ⟨rfl, Works.freed_contour?_same hc, fun j => Works.freed_contour?_other⟩

/-! ## The completion of a contour (R74) -/

section

variable {w : Works} {st : St} {id : Nat} {c : Contour}

theorem Works.reportContourEnd_of_record (h : w.contour? id = some c) :
    w.reportContourEnd st id =
      w.report st
        (.contourEnd id c.state (c.prog.outcome.getD .success) c.prog.arrived c.prog.cursor c.prog.breaks c.prog.offset) := by
  simp only [Works.reportContourEnd, h]

/-- The contour's record once it is COMPLETE and released. -/
def Contour.completed (c : Contour) : Contour :=
  { c with
    state := .complete
    kerf := if c.prog.reservation = 0 then c.kerf else []
    prog := { c.prog with outcome := some .success, reservation := 0 } }

/-- The works with the contour COMPLETE and its slots released, before the station leaves it. -/
def Works.completing (w : Works) (id : Nat) : Works :=
  (w.modContour id fun c => { c with state := .complete, prog := { c.prog with outcome := some .success } }).release id

theorem Works.completing_contour? (h : w.contour? id = some c) : (w.completing id).contour? id = some c.completed := by
  have marked : (w.modContour id fun c =>
      { c with state := .complete, prog := { c.prog with outcome := some .success } }).contour? id
        = some { c with state := .complete, prog := { c.prog with outcome := some .success } } := by
    rw [Works.contour?_modContour_same, h]
    rfl
  exact Works.release_contour? marked nofun

theorem Works.completing_station (h : w.contour? id = some c) (hm : ∀ e ∈ c.kerf, e.handle = none) (j : St) :
    ∃ act, (w.completing id).station j = { w.station j with activity := act } := by
  have marked : (w.modContour id fun c =>
      { c with state := .complete, prog := { c.prog with outcome := some .success } }).contour? id
        = some { c with state := .complete, prog := { c.prog with outcome := some .success } } := by
    rw [Works.contour?_modContour_same, h]
    rfl
  exact Works.release_station_unmarked marked hm j

/-- The completion, with the report it builds. -/
theorem Works.complete_eq (h : w.contour? id = some c) :
    w.complete st id =
      ((w.completing id).upd st fun x =>
        { x.leaveContour with completed := saturate Config.countLimit x.completed }).report st
          (.contourEnd id .complete .success c.prog.arrived c.prog.cursor c.prog.breaks c.prog.offset) := by
  have hc := Works.completing_contour? h
  exact Works.reportContourEnd_of_record (w := (w.completing id).upd st _) hc

theorem Works.complete_contour? (h : w.contour? id = some c) : (w.complete st id).contour? id = some c.completed := by
  rw [Works.complete_eq h, Works.report_contour?, Works.contour?_upd, Works.completing_contour? h]

/-- The station leaves the contour; its report queue is as the report of the end left it. -/
theorem Works.complete_station (h : w.contour? id = some c) (hm : ∀ e ∈ c.kerf, e.handle = none) :
    ∃ act rs lost, (w.complete st id).station st =
      { ({ w.station st with activity := act } : Station).leaveContour with
        completed := saturate Config.countLimit (w.station st).completed, reports := rs, lost := lost } := by
  obtain ⟨act, hact⟩ := Works.completing_station h hm st
  obtain ⟨rs, lost, hr⟩ := Works.report_station ((w.completing id).upd st fun x =>
    { x.leaveContour with completed := saturate Config.countLimit x.completed }) st
    (.contourEnd id .complete .success c.prog.arrived c.prog.cursor c.prog.breaks c.prog.offset)
  refine ⟨act, rs, lost, ?_⟩
  rw [Works.complete_eq h, hr, Works.station_upd_same, hact]

/-- With room in the queue the report of the end joins it. -/
theorem Works.complete_reports (h : w.contour? id = some c) (hm : ∀ e ∈ c.kerf, e.handle = none)
    (room : (w.station st).reports.length < 32) :
    ((w.complete st id).station st).reports = (w.station st).reports ++
      [{ stamp := w.time
         body := .contourEnd id .complete .success c.prog.arrived c.prog.cursor c.prog.breaks c.prog.offset }] := by
  obtain ⟨act, hact⟩ := Works.completing_station h hm st
  have queue : (((w.completing id).upd st fun x =>
      { x.leaveContour with completed := saturate Config.countLimit x.completed }).station st).reports
        = (w.station st).reports := by
    rw [Works.station_upd_same, hact]
    rfl
  have time : (w.completing id).time = w.time := Works.release_time _ id
  rw [Works.complete_eq h, Works.report_of_room _ (by rw [queue]; exact room), Works.station_upd_same]
  simp only [queue, Works.upd_time, time]

theorem Works.complete_station_other (h : w.contour? id = some c) (hm : ∀ e ∈ c.kerf, e.handle = none) {j : St}
    (hj : j ≠ st) : ∃ act, (w.complete st id).station j = { w.station j with activity := act } := by
  rw [Works.complete_eq h, Works.report_station_other _ _ _ _ hj, Works.station_upd_other _ _ _ _ hj]
  exact Works.completing_station h hm j

theorem Works.complete_pool (h : w.contour? id = some c) (unwaited : ∀ g, w.pool.waiting.get g = none) :
    (w.complete st id).pool = { w.pool with free := w.pool.free + c.prog.reservation } := by
  rw [Works.complete_eq h, Works.report_pool, Works.upd_pool]
  exact Works.release_pool_of_unwaited
    (c := { c with state := .complete, prog := { c.prog with outcome := some .success } })
    ((Works.contour?_modContour_same _ _ _).trans (by rw [h]; rfl)) unwaited

end

/-- Settles O41: the record, the station and the pool after the release and the report. -/
theorem completionReleasesTheContour : Obligations.CompletionReleasesTheContour := by
  unfold Obligations.CompletionReleasesTheContour
  intro w st id c h _ hm _ x y
  obtain ⟨act, rs, lost, hy⟩ := Works.complete_station (st := st) h hm
  refine ⟨Works.complete_contour? h, ?_, ?_, ?_, ?_, ?_, ?_, ?_, ?_, ?_, ?_, ?_, ?_, ?_, Works.complete_reports h hm,
    fun j => Works.complete_station_other h hm, Works.complete_pool h⟩
  all_goals
    refine (congrArg _ hy).trans ?_
    rfl

end Sys2Proof.Machine
end

section
/-! PROOFS. ABORT and the beginning of a teardown (R108, R157, R158), and SKIP_CONTOUR (R149, R153 to R155). -/

namespace Sys2Proof.Machine

/-! ## The end of an idle episode (R108) -/

/-- What the end of an idle episode can change of the works. -/
theorem Works.abortIdleEpisode_frame (w : Works) (st : St) :
    (w.abortIdleEpisode st).time = w.time ∧ (w.abortIdleEpisode st).contours = w.contours
      ∧ (w.abortIdleEpisode st).pool = w.pool ∧ ∀ j ≠ st, (w.abortIdleEpisode st).station j = w.station j := by
  obtain ⟨quiet, ends⟩ := w.abortIdleEpisode_ends st
  by_cases h : ∃ e, (w.station st).tc.episode = some e ∧ (w.station st).tc.state = .idle
  · obtain ⟨e, he, hs⟩ := h
    rw [ends e he hs]
    refine ⟨by simp, by simp, by simp, fun j hj => ?_⟩
    rw [Works.station_upd_other _ _ _ _ hj, Works.report_station_other _ _ _ _ hj, Works.station_upd_other _ _ _ _ hj]
  · have nothing : (w.station st).tc.episode = none ∨ (w.station st).tc.state ≠ .idle := by
      cases he : (w.station st).tc.episode with
      | none => exact .inl rfl
      | some e => exact .inr fun hs => h ⟨e, he, hs⟩
    rw [quiet nothing]
    exact ⟨rfl, rfl, rfl, fun _ _ => rfl⟩

/-- What it can change of its station; no episode is left of an IDLE threader. -/
theorem Works.abortIdleEpisode_station (w : Works) (st : St) :
    ∃ tc wire place rs lost,
      (w.abortIdleEpisode st).station st =
          { w.station st with tc := tc, wire := wire, wirePlace := place, reports := rs, lost := lost }
        ∧ tc.episode = (if (w.station st).tc.state = .idle then none else (w.station st).tc.episode)
        ∧ ((w.station st).wire = .unknown → wire = .unknown)
        ∧ ((w.station st).wirePlace = .nowhere → place = .nowhere) := by
  obtain ⟨quiet, ends⟩ := w.abortIdleEpisode_ends st
  by_cases h : ∃ e, (w.station st).tc.episode = some e ∧ (w.station st).tc.state = .idle
  · obtain ⟨e, he, hs⟩ := h
    obtain ⟨rs, lost, hr⟩ := Works.report_station
      (w.upd st fun x => { x with tc := { x.tc with ok := false, fail := true, episode := none } }) st
      (.thread e.kind e.contour .aborted e.attempts e.offset)
    rw [ends e he hs]
    refine ⟨_, _, _, rs, lost, by rw [Works.station_upd_same, hr, Works.station_upd_same], by rw [if_pos hs], ?_, ?_⟩
    · intro unknown
      simp only [unknown, ite_self]
    · intro nowhere
      simp only [nowhere, ite_self]
  · have nothing : (w.station st).tc.episode = none ∨ (w.station st).tc.state ≠ .idle := by
      cases he : (w.station st).tc.episode with
      | none => exact .inl rfl
      | some e => exact .inr fun hs => h ⟨e, he, hs⟩
    rw [quiet nothing]
    refine ⟨(w.station st).tc, (w.station st).wire, (w.station st).wirePlace, (w.station st).reports, (w.station st).lost,
      rfl, ?_, id, id⟩
    by_cases hs : (w.station st).tc.state = .idle
    · rw [if_pos hs, nothing.resolve_right (not_not_intro hs)]
    · rw [if_neg hs]

/-! ## The beginning of a teardown (R157) -/

section

variable (w : Works) (st : St) (cause : TeardownCause)

/-- The station and the pool as a teardown finds them. -/
def Works.tornDown : Works :=
  { w.upd st fun x =>
      { x with
        state := .aborting, holds := Holds.none, catchWait := none, returned := [], failureCutDue := false
        teardown := some cause } with
    pool := { w.pool with waiting := w.pool.waiting.set st none } }

theorem Works.startTeardown_eq :
    w.startTeardown st cause = ((w.tornDown st cause).abortIdleEpisode st).upd st Station.callStop := rfl

theorem Works.tornDown_station :
    (w.tornDown st cause).station st =
      { w.station st with
        state := .aborting, holds := Holds.none, catchWait := none, returned := [], failureCutDue := false
        teardown := some cause } := Works.station_upd_same w st _

/-- The teardown clears what R157 lists, and keeps the pair, the queue and the list. -/
theorem Works.startTeardown_station :
    ∃ tc wire place rs lost,
      (w.startTeardown st cause).station st =
          { w.station st with
            state := .aborting, holds := Holds.none, catchWait := none, returned := [], failureCutDue := false
            teardown := some cause, tc := tc, wire := wire, wirePlace := place, reports := rs, lost := lost
            stopAwaited :=
              (w.station st).stopAwaited || (w.station st).pair.any fun o => o.body.stoppable }
        ∧ tc.episode = (if (w.station st).tc.state = .idle then none else (w.station st).tc.episode)
        ∧ ((w.station st).wire = .unknown → wire = .unknown)
        ∧ ((w.station st).wirePlace = .nowhere → place = .nowhere) := by
  obtain ⟨tc, wire, place, rs, lost, hst, episode, unknown, nowhere⟩ := (w.tornDown st cause).abortIdleEpisode_station st
  rw [Works.tornDown_station] at hst episode unknown nowhere
  refine ⟨tc, wire, place, rs, lost, ?_, episode, unknown, nowhere⟩
  rw [Works.startTeardown_eq, Works.station_upd_same, hst, Station.callStop_stopAwaited]

theorem Works.startTeardown_frame :
    (w.startTeardown st cause).time = w.time ∧ (w.startTeardown st cause).contours = w.contours
      ∧ (w.startTeardown st cause).pool = { w.pool with waiting := w.pool.waiting.set st none }
      ∧ ∀ j ≠ st, (w.startTeardown st cause).station j = w.station j := by
  obtain ⟨time, contours, pool, others⟩ := (w.tornDown st cause).abortIdleEpisode_frame st
  refine ⟨time, contours, pool, fun j hj => ?_⟩
  rw [Works.startTeardown_eq, Works.station_upd_other _ _ _ _ hj, others j hj]
  exact Works.station_upd_other w st j _ hj

end

/-! ## ABORT (R157) -/

section

variable {st : St} {s : State}

theorem judgeAbort_of_idle (h : (s.works.station st).state = .idle) : judgeAbort st s = .error .state := by
  simp only [judgeAbort, h]

theorem judgeAbort_of_aborting (h : (s.works.station st).state = .aborting) : judgeAbort st s = .ok s.works := by
  simp only [judgeAbort, h]

theorem judgeAbort_of_working (h : (s.works.station st).state = .active ∨ (s.works.station st).state = .held) :
    judgeAbort st s = .ok ((s.works.startTeardown st .request).settle st) := by
  obtain active | held := h
  · simp only [judgeAbort, active]
  · simp only [judgeAbort, held]

end

/-- Settles O21: an IDLE station refuses, an ABORTING one has nothing to do, and a working one begins its teardown. -/
theorem abortBeginsTheTeardown : Obligations.AbortBeginsTheTeardown := by
  unfold Obligations.AbortBeginsTheTeardown
  intro s a f rest h s0
  refine ⟨State.finish_of_no_station h _, fun st hst => ?_⟩
  intro x
  refine ⟨fun idle => ?_, fun aborting => ?_, fun working => ?_⟩
  · exact State.finish_of_refused h hst (judgeAbort_of_idle (s := s0) idle)
  · exact State.finish_of_accepted h hst (judgeAbort_of_aborting (s := s0) aborting)
  · have accepted := judgeAbort_of_working (s := s0) working
    obtain ⟨time, contours, pool, others⟩ := s.works.startTeardown_frame st .request
    obtain ⟨tc, wire, place, rs, lost, hx, episode, -⟩ := s.works.startTeardown_station st .request
    refine ⟨s.works.startTeardown st .request, State.finish_of_accepted h hst accepted, contours, time, pool, others, ?_⟩
    rw [hx]
    refine ⟨rfl, rfl, rfl, rfl, rfl, rfl, rfl, rfl, ?_, episode, s.works.startTeardown_begins st .request⟩
    simp only [Bool.or_eq_true, List.any_eq_true, x]

end Sys2Proof.Machine
end

section
/-! PROOFS. What the end of a contour under SKIP leaves, and SKIP_CONTOUR (R46, R88, R149, R153 to R155). -/

namespace Sys2Proof.Machine

/-! ## What a release leaves of other stations and contours (R88, R90) -/

section

variable {w : Works} {id : Nat} {c : Contour}

/-- A release changes of the other stations at most the activity of one it serves. -/
theorem Works.release_station_other (h : w.contour? id = some c) {j : St} (hj : j ≠ c.cfg.station) :
    ∃ act, (w.release id).station j = { w.station j with activity := act } := by
  by_cases hr : c.prog.reservation = 0
  · exact ⟨(w.station j).activity, by rw [Works.release_of_none h hr]⟩
  · rw [Works.release_of_reserved h hr]
    obtain ⟨act, hact⟩ := Works.arbiterRounds_station 4 (w.freed id c) j
    refine ⟨act, hact.trans ?_⟩
    have freed : (w.freed id c).station j = w.station j := Works.markReports_station_other w c.cfg.station j _ _ hj
    rw [freed]

/-- Of another contour a release changes at most the reservation it grants. -/
theorem Works.release_contour?_other {j : Nat} (hj : j ≠ id) :
    ∃ r : Nat, (w.release id).contour? j =
      (w.contour? j).map fun c => { c with prog := { c.prog with reservation := r } } := by
  have same : ∃ r : Nat, w.contour? j = (w.contour? j).map fun c => { c with prog := { c.prog with reservation := r } } := by
    cases hd : w.contour? j with
    | none => exact ⟨0, rfl⟩
    | some d => exact ⟨d.prog.reservation, rfl⟩
  cases h : w.contour? id with
  | none => simpa only [Works.release, h] using same
  | some c =>
    by_cases hr : c.prog.reservation = 0
    · simpa only [Works.release_of_none h hr] using same
    · rw [Works.release_of_reserved h hr]
      refine Works.arbiterRounds_keeps
        (P := fun v => ∃ r : Nat, v.contour? j =
          (w.contour? j).map fun c => { c with prog := { c.prog with reservation := r } })
        (fun v g r ⟨n, hv⟩ _ _ _ => ?_) 4 _ ?_
      · have granted : ((v.grant g r.contour r.need).upd g fun x => { x with activity := .entering }).contour? j
            = (v.modContour r.contour fun c => { c with prog := { c.prog with reservation := r.need } }).contour? j := rfl
        rw [granted]
        by_cases hi : j = r.contour
        · subst hi
          rw [Works.contour?_modContour_same, hv, Option.map_map]
          exact ⟨r.need, rfl⟩
        · rw [Works.contour?_modContour_other _ _ _ _ hi]
          exact ⟨n, hv⟩
      · rw [Works.freed_contour?_other hj]
        exact same

end

/-! ## The discard of a contour's entries (R46, R153) -/

section

variable (w : Works) (st : St) (id : Nat)

theorem Works.discardContour_frame :
    (w.discardContour st id).time = w.time ∧ (w.discardContour st id).contours = w.contours
      ∧ (w.discardContour st id).pool = w.pool ∧ ∀ j ≠ st, (w.discardContour st id).station j = w.station j := by
  unfold Works.discardContour
  dsimp only
  split
  · exact ⟨rfl, rfl, rfl, fun _ _ => rfl⟩
  · refine ⟨by simp, by simp, by simp, fun j hj => ?_⟩
    rw [Works.progressUpdate_station_other _ _ _ hj, Works.station_upd_other _ _ _ _ hj,
      Works.markReports_station_other _ _ _ _ _ hj]

/-- The discard drops the contour's entries from the head of the queue. -/
theorem Works.discardContour_station :
    ∃ adm rs lost, (w.discardContour st id).station st = { w.station st with adm := adm, reports := rs, lost := lost }
      ∧ adm.queue = (w.station st).adm.queue.dropWhile fun e => e.contour == id := by
  unfold Works.discardContour
  extract_lets mine
  have split_queue : mine ++ ((w.station st).adm.queue.dropWhile fun e => e.contour == id) = (w.station st).adm.queue :=
    List.takeWhile_append_dropWhile
  have dropped : (w.station st).adm.queue.drop mine.length
      = (w.station st).adm.queue.dropWhile fun e => e.contour == id := by
    calc (w.station st).adm.queue.drop mine.length
        = (mine ++ ((w.station st).adm.queue.dropWhile fun e => e.contour == id)).drop mine.length := by rw [split_queue]
      _ = _ := List.drop_left
  split
  case h_1 none =>
    have empty : mine = [] := List.getLast?_eq_none_iff.mp none
    refine ⟨(w.station st).adm, (w.station st).reports, (w.station st).lost, rfl, ?_⟩
    rw [← dropped, empty]
    rfl
  case h_2 e _ =>
    obtain ⟨hs, rs, lost, hm⟩ := Works.markReports_station w st (mine.filterMap QEntry.mark) .discarded
    obtain ⟨rs', lost', hp⟩ := Works.progressUpdate_station
      ((w.markReports st (mine.filterMap QEntry.mark) .discarded).upd st fun x =>
        { x with adm := { x.adm with queue := x.adm.queue.drop mine.length }.setConsumed e.seq }) st
    refine ⟨_, rs', lost', by rw [hp, Works.station_upd_same, hm], ?_⟩
    exact dropped

end

/-! ## The end of a contour under SKIP (R153) -/

section

variable {w : Works} {st : St} {id : Nat} {c : Contour} (cause : Cause)

/-- The works with the contour FAILED and its end counted, its entries discarded. -/
def Works.failing (w : Works) (st : St) (id : Nat) (cause : Cause) : Works :=
  ((w.modContour id fun c =>
      { c with state := .failed, prog := { c.prog with outcome := some cause, pendingFailure := none } }).upd st fun x =>
        { x with failed := saturate Config.countLimit x.failed }).discardContour st id

theorem Works.failing_contour?_same (h : w.contour? id = some c) :
    (w.failing st id cause).contour? id =
      some { c with state := .failed, prog := { c.prog with outcome := some cause, pendingFailure := none } } := by
  rw [Works.failing, Works.contour?_congr (Works.discardContour_frame _ _ _).2.1, Works.contour?_upd,
    Works.contour?_modContour_same, h]
  rfl

theorem Works.failing_contour?_other {j : Nat} (hj : j ≠ id) : (w.failing st id cause).contour? j = w.contour? j := by
  rw [Works.failing, Works.contour?_congr (Works.discardContour_frame _ _ _).2.1, Works.contour?_upd,
    Works.contour?_modContour_other _ _ _ _ hj]

/-- The station leaves the contour, with a wire cut due when it needs one. -/
def Station.leaveFailed (x : Station) : Station :=
  { x.leaveContour with
    failureCutDue := decide (x.wire ≠ .unthreaded) && !(x.pair.any fun o => o.body.isWireCut) }

/-- The record of the contour once it has failed and is released. -/
def Contour.failedWith (c : Contour) (cause : Cause) : Contour :=
  { c with
    state := .failed
    kerf := if c.prog.reservation = 0 then c.kerf else []
    prog := { c.prog with outcome := some cause, pendingFailure := none, reservation := 0 } }

theorem Works.failing_release_contour? (h : w.contour? id = some c) :
    ((w.failing st id cause).release id).contour? id = some (c.failedWith cause) :=
  Works.release_contour? (Works.failing_contour?_same cause h) nofun

/-- The end of a contour, with the report it builds. -/
theorem Works.failSkip_eq (h : w.contour? id = some c) :
    w.failSkip st id cause =
      (((w.failing st id cause).release id).upd st Station.leaveFailed).report st
        (.contourEnd id .failed cause c.prog.arrived c.prog.cursor c.prog.breaks c.prog.offset) :=
  Works.reportContourEnd_of_record (w := ((w.failing st id cause).release id).upd st Station.leaveFailed)
    (Works.failing_release_contour? cause h)

theorem Works.failSkip_time (h : w.contour? id = some c) : (w.failSkip st id cause).time = w.time := by
  rw [Works.failSkip_eq cause h, Works.report_time, Works.upd_time, Works.release_time]
  exact (Works.discardContour_frame _ _ _).1

theorem Works.failSkip_contour?_same (h : w.contour? id = some c) :
    (w.failSkip st id cause).contour? id = some (c.failedWith cause) := by
  rw [Works.failSkip_eq cause h, Works.report_contour?, Works.contour?_upd, Works.failing_release_contour? cause h]

theorem Works.failSkip_contour?_other (h : w.contour? id = some c) {j : Nat} (hj : j ≠ id) :
    ∃ r : Nat, (w.failSkip st id cause).contour? j =
      (w.contour? j).map fun c => { c with prog := { c.prog with reservation := r } } := by
  rw [Works.failSkip_eq cause h, Works.report_contour?, Works.contour?_upd,
    ← Works.failing_contour?_other (w := w) (st := st) cause hj]
  exact Works.release_contour?_other hj

theorem Works.failSkip_station_other (h : w.contour? id = some c) (hst : c.cfg.station = st) {j : St} (hj : j ≠ st) :
    ∃ act, (w.failSkip st id cause).station j = { w.station j with activity := act } := by
  obtain ⟨act, hact⟩ := Works.release_station_other (j := j)
    (Works.failing_contour?_same (w := w) (st := st) (id := id) (c := c) cause h) (by rw [hst]; exact hj)
  refine ⟨act, ?_⟩
  have failing : (w.failing st id cause).station j = w.station j :=
    ((Works.discardContour_frame _ st id).2.2.2 j hj).trans (Works.station_upd_other _ _ _ _ hj)
  rw [Works.failSkip_eq cause h, Works.report_station_other _ _ _ _ hj, Works.station_upd_other _ _ _ _ hj, hact, failing]

/-- What the end of its contour leaves of the station. -/
theorem Works.failSkip_station (h : w.contour? id = some c) :
    ∃ adm rs lost,
      (w.failSkip st id cause).station st =
          { (w.station st).leaveFailed with
            adm := adm, failed := saturate Config.countLimit (w.station st).failed, reports := rs, lost := lost }
        ∧ adm.queue = (w.station st).adm.queue.dropWhile fun e => e.contour == id := by
  obtain ⟨adm, rs, lost, hd, hq⟩ := Works.discardContour_station ((w.modContour id fun c =>
      { c with state := .failed, prog := { c.prog with outcome := some cause, pendingFailure := none } }).upd st fun x =>
        { x with failed := saturate Config.countLimit x.failed }) st id
  obtain ⟨hs, act, rs', lost', hr⟩ := Works.release_station (w.failing st id cause) id st
  obtain ⟨rs'', lost'', hrep⟩ := Works.report_station
    (((w.failing st id cause).release id).upd st Station.leaveFailed) st
    (.contourEnd id .failed cause c.prog.arrived c.prog.cursor c.prog.breaks c.prog.offset)
  rw [Works.station_upd_same] at hd hq
  refine ⟨{ adm with handles := hs }, rs'', lost'', ?_, hq⟩
  rw [Works.failSkip_eq cause h, hrep, Works.station_upd_same, hr, Works.failing, hd]
  rfl

end

/-! ## The contour with a pending failure (R155, R156) -/

section

variable {w : Works} {st : St}

theorem Works.failed?_eq_some {id : Nat} {c : Contour} {cause : Cause}
    (working : (w.station st).state = .active ∨ (w.station st).state = .held) (hi : (w.station st).current = some id)
    (hc : w.contour? id = some c) (hp : c.prog.pendingFailure = some cause) : w.failed? st = some (id, c) := by
  rw [Works.failed?, if_pos ((Station.working_iff _).mpr working), Works.current?_of_record hi hc, Option.filter_some,
    if_pos (by rw [hp]; rfl)]

theorem Works.failed?_eq_none
    (h : (w.station st).state = .idle ∨ (w.station st).state = .aborting ∨ (w.station st).current = none
      ∨ ∃ id, (w.station st).current = some id ∧ ∀ c, w.contour? id = some c → c.prog.pendingFailure = none) :
    w.failed? st = none := by
  unfold Works.failed?
  split
  case isFalse => rfl
  case isTrue working =>
    refine Option.filter_eq_none_iff.mpr fun p hp pending => ?_
    obtain ⟨hi, hc⟩ := Works.current?_eq_some_iff.mp hp
    have atWork := (Station.working_iff _).mp working
    obtain idle | aborting | none | ⟨id, hid, free⟩ := h
    · simp [idle] at atWork
    · simp [aborting] at atWork
    · exact absurd (none.symm.trans hi) nofun
    · obtain rfl : id = p.1 := Option.some.inj (hid.symm.trans hi)
      rw [free p.2 hc] at pending
      cases pending

end

/-! ## SKIP_CONTOUR (R155) -/

/-- CONTOUR_FAILED gone from the set. -/
theorem Works.removeHolds_contourFailed (w : Works) (st : St) :
    w.removeHolds st (Holds.only .contourFailed) =
      w.upd st fun x => { x with holds := { x.holds with contourFailed := false } } := by
  refine Works.upd_congr _ _ ?_
  simp [Holds.without, Holds.zip, Holds.only]

section

variable {st : St} {f : MgmtFrame} {s : State}

theorem skipContour_of_none (h : s.works.failed? st = none) : skipContour st f s = s.answerStation f st .state := by
  simp only [skipContour, h]

theorem skipContour_of_failed {id : Nat} {c : Contour} (h : s.works.failed? st = some (id, c)) :
    skipContour st f s =
      (s.onWorks fun w => w.skipContour st id).answer f .ok
        (.skipped ((s.works.skipContour st id).station st).state ((s.works.skipContour st id).station st).holds id
          .skippedByRequest) := by
  simp only [skipContour, h]
  rfl

end

/-- Settles O19: a contour failure under either policy, the refusals, and what an accepted SKIP_CONTOUR leaves. -/
theorem skipContourEndsTheFailedContour : Obligations.SkipContourEndsTheFailedContour := by
  unfold Obligations.SkipContourEndsTheFailedContour
  refine ⟨fun w st id c cause code hi hc => Works.failContour_fails cause code hi hc, fun s a f rest h => ?_⟩
  intro s0
  refine ⟨State.finish_of_no_station h _, fun st hst => ?_⟩
  intro x
  have taken : exec .skipContour s = .next (skipContour st f s0).upstream := State.finish_of_station h skipContour hst
  rw [taken]
  refine ⟨fun refused => ?_, fun id c cause working hi hc hp hcst _ => ?_⟩
  · rw [skipContour_of_none (s := s0) (Works.failed?_eq_none refused)]
    rfl
  · let v := s.works.upd st fun x => { x with holds := { x.holds with contourFailed := false } }
    have hv : v.contour? id = some c := hc
    have hx : v.station st = { x with holds := { x.holds with contourFailed := false } } := Works.station_upd_same _ _ _
    obtain ⟨adm, rs, lost, hstation, hqueue⟩ := Works.failSkip_station (st := st) .skippedByRequest hv
    have removed : s.works.removeHolds st (Holds.only .contourFailed) = v := Works.removeHolds_contourFailed _ _
    rw [skipContour_of_failed (s := s0) (Works.failed?_eq_some (w := s0.works) working hi hc hp)]
    refine ⟨v.failSkip st id .skippedByRequest, ?_, Works.failSkip_ends .skippedByRequest hv,
      Works.failSkip_time .skippedByRequest hv, Works.failSkip_contour?_same .skippedByRequest hv,
      fun j hj => Works.failSkip_contour?_other .skippedByRequest hv hj, fun j hj => ?_, ?_⟩
    · rw [← removed]
      rfl
    · obtain ⟨act, hact⟩ := Works.failSkip_station_other .skippedByRequest hv hcst hj
      exact ⟨act, hact.trans (by rw [Works.station_upd_other _ _ _ _ hj])⟩
    · rw [hstation, hx]
      rw [hx] at hqueue
      refine ⟨hqueue, rfl, rfl, rfl, rfl, rfl, rfl, rfl, rfl, rfl, ?_⟩
      simp [Station.leaveFailed]

end Sys2Proof.Machine
end

section
/-! PROOFS. RETRY and the work it takes up (R146, R149, R156). -/

namespace Sys2Proof.Machine

/-! ## The work a RETRY takes up (R156) -/

section

variable {w : Works} {st : St} {id : Nat} {c : Contour}

theorem Works.takeUp_of_entering (hr : (w.station st).recovery = none) (hs : c.state = .entering) :
    w.takeUp st id c = w.upd st fun x => { x with activity := .entering } := by
  simp only [Works.takeUp, hr, hs]

theorem Works.takeUp_of_tabCutting (hr : (w.station st).recovery = none) (hs : c.state = .tabCutting) :
    w.takeUp st id c = w.modPass st fun p => { p with step := .travel, next := 0 } := by
  simp only [Works.takeUp, hr, hs]

theorem Works.takeUp_of_other (hr : (w.station st).recovery = none) (he : c.state ≠ .entering) (ht : c.state ≠ .tabCutting) :
    w.takeUp st id c = w := by
  simp only [Works.takeUp, hr]
  split
  · exact absurd ‹_› he
  · exact absurd ‹_› ht
  all_goals rfl

theorem Works.takeUp_of_cutting {r : Recovery} (hr : (w.station st).recovery = some r) (hc : c.needsCutting = true) :
    w.takeUp st id c = w.upd st fun x =>
      { x with
        recovery := x.recovery.map fun r =>
          { r with
            place := .startHole, path := some .startHole, next := none
            step := if x.wire = .unthreaded then .travel else .due } } := by
  simp only [Works.takeUp, hr, if_pos hc]
  exact Works.upd_congr _ _ rfl

theorem Works.takeUp_of_rest {r : Recovery} (hr : (w.station st).recovery = some r) (hc : c.needsCutting = false) :
    w.takeUp st id c = w.retryClosing st id c := by
  have rest : ¬c.needsCutting = true := Bool.eq_false_iff.mp hc
  simp only [Works.takeUp, hr, if_neg rest]

/-- The recovery record gone, with the activity that goes with the contour's work. -/
def Works.unrecovered (w : Works) (st : St) (a : Activity) : Works :=
  w.upd st fun x => { x with recovery := none, activity := a }

theorem Works.unrecovered_eq (hi : (w.station st).current = some id) (hc : w.contour? id = some c) :
    (w.upd st fun x => { x with recovery := none }).upd st
        (fun x => { x with activity := (w.upd st fun x => { x with recovery := none }).workActivity st })
      = w.unrecovered st (c.returnsTo (w.station st).pass.isSome) := by
  have activity : (w.upd st fun x => { x with recovery := none }).workActivity st
      = c.returnsTo (w.station st).pass.isSome := by
    have returns := Works.workActivity_returnsTo (w := w.upd st fun x => { x with recovery := none }) (st := st)
      (by rw [Works.station_upd_same]; exact hi) hc
    rwa [Works.station_upd_same] at returns
  rw [activity, Works.upd_upd]
  rfl

theorem Contour.returnsTo_cutting (h : c.state = .cutting) (pass : Bool) :
    c.returnsTo pass = if pass then .tabPass else .cutting := by
  simp only [Contour.returnsTo, h, if_true]

theorem Contour.returnsTo_closing (h : c.state = .closing) (pass : Bool) :
    c.returnsTo pass = if pass then .tabPass else .closing := by
  simp [Contour.returnsTo, h]

theorem Works.retryClosing_of_closing {d : Contour} (hi : (w.station st).current = some id) (hd : w.contour? id = some d)
    (hs : d.state = .closing) (hc : c.state = .closing) :
    w.retryClosing st id c =
      (w.unrecovered st (if (w.station st).pass.isSome then .tabPass else .closing)).tryComplete st := by
  simp only [Works.retryClosing, hc, Works.unrecovered_eq hi hd, Contour.returnsTo_closing hs]

theorem Works.retryClosing_of_cutting {d : Contour} (hi : (w.station st).current = some id) (hd : w.contour? id = some d)
    (hs : d.state = .cutting) (hc : c.state = .cutting) :
    w.retryClosing st id c =
      if (w.station st).mainEndDone c then
        ((w.unrecovered st (if (w.station st).pass.isSome then .tabPass else .cutting)).modContour id fun c =>
          c.setState .tailIntake).upd st fun x => { x with activity := .tailIntake }
      else w.unrecovered st (if (w.station st).pass.isSome then .tabPass else .cutting) := by
  simp only [Works.retryClosing, hc, Works.unrecovered_eq hi hd, Contour.returnsTo_cutting hs]

/-- The wire cut that ended the main pass is behind a contour. -/
theorem Station.mainEndDone_iff (x : Station) :
    x.mainEndDone c = true ↔ c.mainEnded = true ∧ x.wire = .unthreaded ∧ (∀ o ∈ x.pair, o.body.isWireCut = false)
      ∧ ∀ q ∈ x.returned, q.body.isWireCut = false := by
  simp only [Station.mainEndDone, Bool.and_eq_true, beq_iff_eq, Bool.not_eq_true', List.any_eq_false, Bool.not_eq_true,
    and_assoc]

theorem Contour.needsCutting_of_closing (h : c.state = .closing) : c.needsCutting = false := by
  simp only [Contour.needsCutting, h]

/-- Completing a contour leaves the station without contour and recovery. -/
theorem Works.complete_leaves (h : w.contour? id = some c) :
    ((w.complete st id).station st).recovery = none ∧ ((w.complete st id).station st).current = none := by
  rw [Works.complete_eq h]
  generalize ReportBody.contourEnd _ _ _ _ _ _ _ = body
  obtain ⟨rs, lost, hr⟩ := Works.report_station ((w.completing id).upd st fun x =>
    { x.leaveContour with completed := saturate Config.countLimit x.completed }) st body
  rw [hr, Works.station_upd_same]
  exact ⟨rfl, rfl⟩

end

/-! ## RETRY (R156) -/

section

variable {st : St} {s : State}

theorem judgeRetry_of_none (h : s.works.failed? st = none) : judgeRetry st s = .error .state := by
  simp only [judgeRetry, h]

/-- The failure gone and its hold lifted, before the work is taken up. -/
def Works.unfailing (w : Works) (st : St) (id : Nat) : Works :=
  (w.modContour id fun c => { c with prog := { c.prog with pendingFailure := none, breaks := 0 } }).upd st fun x =>
    { x with holds := { x.holds with contourFailed := false } }

theorem judgeRetry_of_failed {id : Nat} {c : Contour} (h : s.works.failed? st = some (id, c)) :
    judgeRetry st s =
      .ok ((((s.works.unfailing st id).takeUp st id c).resumeIfClear st .retry).settle st) := by
  simp only [judgeRetry, h, Works.retry, Works.removeHolds_contourFailed]
  rfl

end

section

variable {w : Works} {st : St} {id : Nat} {c : Contour}

/-- The record of a contour whose failure is gone. -/
def Contour.unfailed (c : Contour) : Contour := { c with prog := { c.prog with pendingFailure := none, breaks := 0 } }

theorem Works.unfailing_station :
    (w.unfailing st id).station st =
      { w.station st with holds := { (w.station st).holds with contourFailed := false } } := by
  rw [Works.unfailing, Works.station_upd_same, Works.modContour_station]

theorem Works.unfailing_contour? (h : w.contour? id = some c) : (w.unfailing st id).contour? id = some c.unfailed := by
  rw [Works.unfailing, Works.contour?_upd, Works.contour?_modContour_same, h]
  rfl

end

/-- Settles O20: the refusals, and the work taken up by what the contour holds. -/
theorem retryTakesTheContourUpAgain : Obligations.RetryTakesTheContourUpAgain := by
  unfold Obligations.RetryTakesTheContourUpAgain
  intro s a f rest h s0
  refine ⟨State.finish_of_no_station h _, fun st hst => ?_⟩
  intro x
  refine ⟨fun refused => ?refused, fun id c cause working hi hc hp => ?accepted⟩
  case refused =>
    exact State.finish_of_refused h hst (judgeRetry_of_none (s := s0) (Works.failed?_eq_none refused))
  case accepted =>
    intro w1
    have accepted := judgeRetry_of_failed (s := s0) (Works.failed?_eq_some (w := s0.works) working hi hc hp)
    have hx : w1.station st = { x with holds := { x.holds with contourFailed := false } } := Works.unfailing_station
    have hc1 : w1.contour? id = some c.unfailed := Works.unfailing_contour? (w := s.works) hc
    have hi1 : (w1.station st).current = some id := by rw [hx]; exact hi
    have hr1 (v : Option Recovery) (hr : x.recovery = v) : (w1.station st).recovery = v := by rw [hx]; exact hr
    have hdone_iff : (w1.station st).mainEndDone c = true ↔ c.mainEnded = true ∧ x.wire = .unthreaded
        ∧ (∀ o ∈ x.pair, o.body.isWireCut = false) ∧ ∀ q ∈ x.returned, q.body.isWireCut = false := by
      rw [hx]
      exact Station.mainEndDone_iff _
    refine ⟨w1.takeUp st id c, State.finish_of_accepted h hst accepted, fun hr hs => ?entering, fun hr hs => ?tabCutting,
      fun r hr hn => ?needsCutting, fun r hr hn hs ended unthreaded pair returned => ?mainEnd,
      fun r k hr hs hk hcut hsat => ?completes, fun r k hr hs hk waits => ?closing, fun r hr hn hs more => ?cutting,
      fun hr he ht => ?nothing⟩
    case entering => exact Works.takeUp_of_entering (hr1 _ hr) hs
    case tabCutting => exact Works.takeUp_of_tabCutting (hr1 _ hr) hs
    case needsCutting => exact Works.takeUp_of_cutting (hr1 _ hr) hn
    case mainEnd =>
      rw [Works.takeUp_of_rest (hr1 _ hr) hn, Works.retryClosing_of_cutting hi1 hc1 hs hs,
        if_pos (hdone_iff.mpr ⟨ended, unthreaded, pair, returned⟩), Works.station_upd_same, Works.contour?_upd,
        Works.contour?_modContour_same, Works.modContour_station, Works.unrecovered, Works.station_upd_same,
        Works.contour?_upd, hc1]
      exact ⟨rfl, rfl, rfl⟩
    case completes =>
      rw [Works.takeUp_of_rest (hr1 _ hr) (Contour.needsCutting_of_closing hs), Works.retryClosing_of_closing hi1 hc1 hs hs]
      generalize (if (w1.station st).pass.isSome then Activity.tabPass else Activity.closing) = act
      have hcur : (w1.unrecovered st act).current? st = some (id, c.unfailed) := by
        rw [Works.unrecovered, Works.current?_upd rfl, Works.current?_of_record hi1 hc1]
      have hclo : ((w1.unrecovered st act).station st).closing = some k := by
        rw [Works.unrecovered, Works.station_upd_same, hx]
        exact hk
      rw [Works.tryComplete_of_ready hcur hclo hs rfl hcut hsat]
      refine ⟨?_, Works.complete_leaves hc1⟩
      rw [Works.complete_contour? (w := w1.unrecovered st act) hc1]
      rfl
    case closing =>
      rw [Works.takeUp_of_rest (hr1 _ hr) (Contour.needsCutting_of_closing hs), Works.retryClosing_of_closing hi1 hc1 hs hs,
        Works.tryComplete_of_not]
      · exact Works.upd_congr _ _ rfl
      · rintro id' c' k' - hk' ⟨-, -, hcut, hsat⟩
        rw [Works.unrecovered, Works.station_upd_same, hx] at hk'
        obtain rfl : k = k' := Option.some.inj (hk.symm.trans hk')
        exact waits.elim (fun uncut => absurd (uncut.symm.trans hcut) nofun) fun unsat =>
          absurd (unsat.symm.trans hsat) nofun
    case cutting =>
      have undone : ¬(w1.station st).mainEndDone c = true := by
        rw [hdone_iff]
        rintro ⟨ended, unthreaded, pair, returned⟩
        obtain h | h | ⟨o, ho, h⟩ | ⟨q, hq, h⟩ := more
        · exact absurd (h.symm.trans ended) nofun
        · exact h unthreaded
        · exact absurd ((pair o ho).symm.trans h) nofun
        · exact absurd ((returned q hq).symm.trans h) nofun
      rw [Works.takeUp_of_rest (hr1 _ hr) hn, Works.retryClosing_of_cutting hi1 hc1 hs hs, if_neg undone]
      exact Works.upd_congr _ _ rfl
    case nothing => exact Works.takeUp_of_other (hr1 _ hr) he ht

end Sys2Proof.Machine
end

section
/-! PROOFS. What a sequencer does next, case by case (R53, R60, R61, R64 to R77, R97, R121 to R125, R131 to R135, R153, R158):
one equation for each branch of `Works.act`, over the station `x` as it stands. -/

namespace Sys2Proof.Machine

/-! ## Issues (R57) -/

theorem Works.issue_of_up {w : Works} {st : St} (h : (w.station st).linkUp = true) (b : OpBody) (pre : Works → Works) :
    w.issue st b pre = (pre w).upd st fun x => x.push b := if_pos h

theorem Works.issue_of_down {w : Works} {st : St} (h : (w.station st).linkUp = false) (b : OpBody) (pre : Works → Works) :
    w.issue st b pre = w.driveLoss st := if_neg (by rw [h]; nofun)

theorem Station.moveRoom_iff (x : Station) :
    x.moveRoom = true ↔ x.pair.length < 2 ∧ ∀ o ∈ x.pair, o.body.isTool = false := by
  simp only [Station.moveRoom, Bool.and_eq_true, decide_eq_true_eq, List.all_eq_true, Bool.not_eq_true']

theorem Station.room_iff (x : Station) (b : OpBody) :
    x.room b = true ↔ x.pair.length < 2 ∧ (∀ o ∈ x.pair, o.body.isTool = false) ∧ (b.isTool = true → x.pair = []) := by
  unfold Station.room
  split
  case isTrue h =>
    rw [List.isEmpty_iff]
    exact ⟨fun empty => by simp [empty], fun room => room.2.2 h⟩
  case isFalse h =>
    rw [Station.moveRoom_iff]
    exact ⟨fun room => ⟨room.1, room.2, fun tool => absurd tool h⟩, fun room => ⟨room.1, room.2.1⟩⟩

section

variable {w : Works} {st : St} {x : Station} (hx : w.station st = x) {id : Nat} {c : Contour}

/-! ## One action by station state (R53) -/

section

include hx

theorem Works.act_of_active (h : x.state = .active) : w.act st = w.activeAct st := by
  simp only [Works.act, hx, h]

theorem Works.act_of_held (h : x.state = .held) : w.act st = w.intakeAct st := by
  simp only [Works.act, hx, h]

theorem Works.act_of_aborting (h : x.state = .aborting) : w.act st = w.teardownAct st := by
  simp only [Works.act, hx, h]

end

/-! ## Tail intake (R70) -/

theorem Works.intakeAct_eq_none_of
    (h : ∀ id c e rest, w.current? st = some (id, c) → (w.station st).adm.queue = e :: rest →
      ¬(c.state = .tailIntake ∧ e.contour = id)) : w.intakeAct st = none := by
  unfold Works.intakeAct
  split
  case h_1 id c e rest hc hq => exact if_neg (h id c e rest hc hq)
  case h_2 => rfl

theorem Works.intakeAct_eq_none (h : ∀ id c, w.current? st = some (id, c) → c.state ≠ .tailIntake) :
    w.intakeAct st = none := Works.intakeAct_eq_none_of fun id c _ _ hc _ both => h id c hc both.1

/-- The contour's frame at the head is recorded. -/
theorem Works.intakeAct_of_tail {e : QEntry} {rest : List QEntry} (hc : w.current? st = some (id, c))
    (hq : (w.station st).adm.queue = e :: rest) (hs : c.state = .tailIntake) (he : e.contour = id) :
    w.intakeAct st =
      some (if e.ordinal = c.cfg.segments then
          ((w.modContour id fun c => c.record (e.toKerf .tail none)).consumeHead st).defer st id
        else (w.modContour id fun c => c.record (e.toKerf .tail none)).consumeHead st) := by
  simp only [Works.intakeAct, hc, hq, if_pos (And.intro hs he)]

/-! ## An ACTIVE station (R60, R61, R146) -/

section

include hx

omit hx in
theorem Works.activeAct_of_intake {w' : Works} (h : w.intakeAct st = some w') : w.activeAct st = some w' := by
  simp only [Works.activeAct, h]

theorem Works.activeAct_of_awaiting (hi : w.intakeAct st = none) (h : x.stopAwaited = true) :
    w.activeAct st = w.awaitingAct st := by
  simp only [Works.activeAct, hi, hx, h, if_true]

theorem Works.activeAct_of_returned {r : Returned} {rest : List Returned} (hi : w.intakeAct st = none)
    (hs : x.stopAwaited = false) (h : x.returned = r :: rest) : w.activeAct st = w.reissue st r rest := by
  simp only [Works.activeAct, hi, hx, hs, h, Bool.false_eq_true, if_false]

theorem Works.activeAct_of_contour (hi : w.intakeAct st = none) (hs : x.stopAwaited = false) (h : x.returned = [])
    (hc : w.current? st = some (id, c)) : w.activeAct st = w.contourAct st id c := by
  simp only [Works.activeAct, hi, hx, hs, h, Bool.false_eq_true, if_false, hc]

theorem Works.activeAct_of_idle (hi : w.intakeAct st = none) (hs : x.stopAwaited = false) (h : x.returned = [])
    (hc : w.current? st = none) : w.activeAct st = w.idleAct st := by
  simp only [Works.activeAct, hi, hx, hs, h, Bool.false_eq_true, if_false, hc]

/-- The reissue of the oldest returned operation. -/
theorem Works.reissue_of_room {r : Returned} (rest : List Returned) (h : x.room r.again = true) :
    w.reissue st r rest =
      some (w.issue st r.again fun w => w.upd st fun x =>
        { x with
          returned := rest
          tc := match r.body with
            | .abandon => { x.tc with state := .abandoning }
            | .move _ _ _ _ _ | .thread _ | .confirm | .wireCut _ | .dwell _ _ => x.tc }) := by
  rw [Works.reissue, hx, if_pos h] <;> rfl

theorem Works.reissue_of_no_room {r : Returned} (rest : List Returned) (h : ¬x.room r.again = true) :
    w.reissue st r rest = none := by
  rw [Works.reissue, hx, if_neg h]

end

/-! ## Episodes and recoveries (R97, R102, R105, R121 to R125) -/

section

include hx

theorem Works.threadAct_of_attempt {e : Episode} (hs : x.tc.state = .idle) (hp : x.pair = []) (hr : e.reason = none) :
    w.threadAct st e =
      some (w.issue st (.thread e.offset) fun w => w.modThreader st fun t => { t with state := .feeding }) := by
  simp only [Works.threadAct, hx, if_pos (And.intro hs hp), hr]

theorem Works.threadAct_of_reason {e : Episode} (hs : x.tc.state = .idle) (hp : x.pair = []) (hr : e.reason ≠ none) :
    w.threadAct st e =
      some (w.issue st .abandon fun w => w.modThreader st fun t => { t with state := .abandoning }) := by
  obtain ⟨r, hr⟩ := Option.ne_none_iff_exists'.mp hr
  simp only [Works.threadAct, hx, if_pos (And.intro hs hp), hr]

theorem Works.threadAct_eq_none {e : Episode} (h : ¬(x.tc.state = .idle ∧ x.pair = [])) : w.threadAct st e = none := by
  simp only [Works.threadAct, hx, if_neg h]

theorem Works.traverseAct_of_last {n : Nat} (hw : x.wire = .threaded) (hr : x.moveRoom = true)
    (h : (w.traverseList st id c).length ≤ n) : w.traverseAct st id c n = some (w.endRecovery st) := by
  simp only [Works.traverseAct, hx, if_pos (And.intro hw hr), List.getElem?_eq_none h]

theorem Works.traverseAct_of_move {n : Nat} {d : Direction} {e : KerfEntry} (hw : x.wire = .threaded)
    (hr : x.moveRoom = true) (h : (w.traverseList st id c)[n]? = some (d, e)) :
    w.traverseAct st id c n =
      some (w.issue st (kerfMove d id e) fun v =>
        if n + 1 < (w.traverseList st id c).length then v.modRecovery st fun r => { r with next := some (n + 1) }
        else v.endRecovery st) := by
  simp only [Works.traverseAct, hx, if_pos (And.intro hw hr), h]

theorem Works.traverseAct_eq_none {n : Nat} (h : ¬(x.wire = .threaded ∧ x.moveRoom = true)) :
    w.traverseAct st id c n = none := by
  simp only [Works.traverseAct, hx, if_neg h]

theorem Works.recoveryAct_of_due_cut {r : Recovery} (hs : r.step = .due) (hp : x.pair = []) (hc : c.needsCutting = true) :
    w.recoveryAct st id c r =
      some (w.issue st (.wireCut .recovery) fun w =>
        (w.modRecovery st fun r => { r with step := .wireCut }).upd st fun x => { x with activity := .recovering }) := by
  simp only [Works.recoveryAct, hs, hx, if_pos hp, if_pos hc]

theorem Works.recoveryAct_of_due_free {r : Recovery} (hs : r.step = .due) (hp : x.pair = []) (hc : c.needsCutting = false) :
    w.recoveryAct st id c r = some (w.upd st fun x => { x with recovery := none, activity := w.workActivity st }) := by
  simp only [Works.recoveryAct, hs, hx, if_pos hp, hc, Bool.false_eq_true, if_false]

omit hx in
theorem Works.recoveryAct_of_wireCut {r : Recovery} (hs : r.step = .wireCut) : w.recoveryAct st id c r = none := by
  simp only [Works.recoveryAct, hs]

theorem Works.recoveryAct_of_travel {r : Recovery} (hs : r.step = .travel) (hp : x.pair = []) :
    w.recoveryAct st id c r =
      some (w.issue st (travelTo c (w.firstFeed st id c) .recoveryTravel) fun w => w) := by
  simp only [Works.recoveryAct, hs, hx, if_pos hp]

theorem Works.recoveryAct_of_occupied {r : Recovery} (hs : r.step = .due ∨ r.step = .travel) (hp : x.pair ≠ []) :
    w.recoveryAct st id c r = none := by
  obtain due | travel := hs
  · simp only [Works.recoveryAct, due, hx, if_neg hp]
  · simp only [Works.recoveryAct, travel, hx, if_neg hp]

theorem Works.recoveryAct_of_episode {r : Recovery} {e : Episode} (hs : r.step = .inKerf ∨ r.step = .startHole)
    (he : x.tc.episode = some e) : w.recoveryAct st id c r = w.threadAct st e := by
  obtain kerf | hole := hs
  · simp only [Works.recoveryAct, kerf, hx, he]
  · simp only [Works.recoveryAct, hole, hx, he]

theorem Works.recoveryAct_of_no_episode {r : Recovery} (hs : r.step = .inKerf ∨ r.step = .startHole)
    (he : x.tc.episode = none) :
    w.recoveryAct st id c r =
      if x.pair = [] then some (w.startEpisode st (if r.step = .inKerf then .inKerf else .startHole) id c) else none := by
  obtain kerf | hole := hs
  · simp only [Works.recoveryAct, kerf, hx, he]
  · simp only [Works.recoveryAct, hole, hx, he]

omit hx in
theorem Works.recoveryAct_of_traverse {r : Recovery} (hs : r.step = .traverse) :
    w.recoveryAct st id c r = w.traverseAct st id c (r.next.getD 0) := by
  simp only [Works.recoveryAct, hs]

end

/-! ## The entry (R65, R66) -/

section

include hx

theorem Works.entryAct_of_occupied (hp : x.pair ≠ []) : w.entryAct st id c = none := by
  simp only [Works.entryAct, hx, if_neg hp]

theorem Works.entryAct_of_held (h : x.kerfRequest = .held) : w.entryAct st id c = none := by
  simp only [Works.entryAct, hx, h, ite_self]

theorem Works.entryAct_of_due (hp : x.pair = []) (h : x.kerfRequest = .due) :
    w.entryAct st id c = some (w.dueRequest st id c) := by
  simp only [Works.entryAct, hx, if_pos hp, h]

theorem Works.entryAct_of_steps (hp : x.pair = []) (h : x.kerfRequest = .none) :
    w.entryAct st id c = w.entrySteps st id c := by
  simp only [Works.entryAct, hx, if_pos hp, h]

theorem Works.entrySteps_of_wire (ha : x.activity = .entering) (hw : x.wire ≠ .unthreaded) :
    w.entrySteps st id c = some (w.issue st (.wireCut .entry) fun w => w) := by
  simp only [Works.entrySteps, hx, ha, if_pos hw]

theorem Works.entrySteps_of_travel {e : QEntry} {rest : List QEntry} (ha : x.activity = .entering)
    (hw : x.wire = .unthreaded) (hq : x.adm.queue = e :: rest) :
    w.entrySteps st id c = some (w.issue st (travelTo c e.seg.feed .entryTravel) fun w => w) := by
  simp only [Works.entrySteps, hx, ha, if_neg (not_not_intro hw), hq]

theorem Works.entrySteps_of_no_frame (ha : x.activity = .entering) (hw : x.wire = .unthreaded) (hq : x.adm.queue = []) :
    w.entrySteps st id c = none := by
  simp only [Works.entrySteps, hx, ha, if_neg (not_not_intro hw), hq]

theorem Works.entrySteps_of_threading (ha : x.activity = .threading) :
    w.entrySteps st id c = some (w.startEpisode st .startHole id c) := by
  simp only [Works.entrySteps, hx, ha]

theorem Works.entrySteps_eq_none (he : x.activity ≠ .entering) (ht : x.activity ≠ .threading) :
    w.entrySteps st id c = none := by
  simp only [Works.entrySteps, hx]
  split
  · exact absurd ‹_› he
  · exact absurd ‹_› ht
  all_goals rfl

end

/-! ## The main pass (R67, R69) -/

section

include hx

theorem Works.mainAct_eq_none (h : ¬(x.activity = .cutting ∧ c.mainEnded = false)) : w.mainAct st id c = none := by
  simp only [Works.mainAct, hx, if_neg h]

theorem Works.mainAct_of_pending {e : KerfEntry} (h : x.activity = .cutting ∧ c.mainEnded = false)
    (hl : c.lowestPending = some e) (hr : x.wire = .threaded ∧ x.moveRoom = true) :
    w.mainAct st id c =
      some (w.issue st (cutMove .forward e (.mainEntry id e.ordinal)) fun w =>
        w.modContour id fun c => c.modEntry e.ordinal fun e => { e with state := .issued }) := by
  simp only [Works.mainAct, hx, if_pos h, hl, if_pos hr]

theorem Works.mainAct_of_pending_no_room {e : KerfEntry} (h : x.activity = .cutting ∧ c.mainEnded = false)
    (hl : c.lowestPending = some e) (hr : ¬(x.wire = .threaded ∧ x.moveRoom = true)) : w.mainAct st id c = none := by
  simp only [Works.mainAct, hx, if_pos h, hl, if_neg hr]

theorem Works.mainAct_of_tab (h : x.activity = .cutting ∧ c.mainEnded = false) (hl : c.lowestPending = none)
    (ht : c.atTab = true) (hp : x.pair = []) :
    w.mainAct st id c =
      some (w.issue st (.wireCut .mainEnd) fun w => w.modContour id fun c => { c with mainEnded := true }) := by
  simp only [Works.mainAct, hx, if_pos h, hl, if_pos ht, if_pos hp]

theorem Works.mainAct_of_tab_occupied (h : x.activity = .cutting ∧ c.mainEnded = false) (hl : c.lowestPending = none)
    (ht : c.atTab = true) (hp : x.pair ≠ []) : w.mainAct st id c = none := by
  simp only [Works.mainAct, hx, if_pos h, hl, if_pos ht, if_neg hp]

theorem Works.mainAct_of_no_frame (h : x.activity = .cutting ∧ c.mainEnded = false) (hl : c.lowestPending = none)
    (ht : c.atTab = false) (hq : x.adm.queue = []) : w.mainAct st id c = none := by
  simp only [Works.mainAct, hx, if_pos h, hl, ht, Bool.false_eq_true, if_false, hq]

theorem Works.mainAct_of_frame {q : QEntry} {rest : List QEntry} (h : x.activity = .cutting ∧ c.mainEnded = false)
    (hl : c.lowestPending = none) (ht : c.atTab = false) (hq : x.adm.queue = q :: rest)
    (hr : q.contour = id ∧ q.ordinal = c.h + 1 ∧ x.wire = .threaded ∧ x.moveRoom = true) :
    w.mainAct st id c =
      some (w.issue st (cutMove .forward (q.toKerf .issued (some .forward)) (.mainEntry id q.ordinal)) fun w =>
        (w.modContour id fun c => c.record (q.toKerf .issued (some .forward))).consumeHead st) := by
  simp only [Works.mainAct, hx, if_pos h, hl, ht, Bool.false_eq_true, if_false, hq, if_pos hr]

theorem Works.mainAct_of_other_frame {q : QEntry} {rest : List QEntry} (h : x.activity = .cutting ∧ c.mainEnded = false)
    (hl : c.lowestPending = none) (ht : c.atTab = false) (hq : x.adm.queue = q :: rest)
    (hr : ¬(q.contour = id ∧ q.ordinal = c.h + 1 ∧ x.wire = .threaded ∧ x.moveRoom = true)) :
    w.mainAct st id c = none := by
  simp only [Works.mainAct, hx, if_pos h, hl, ht, Bool.false_eq_true, if_false, hq, if_neg hr]

end

/-! ## A pass contour (R133 to R135), and a closing (R72) -/

section

include hx

theorem Works.approachAct_eq_none {p : PassWork} (h : ¬(x.wire = .threaded ∧ x.moveRoom = true)) :
    w.approachAct st id c p = none := by
  simp only [Works.approachAct, hx, if_neg h]

theorem Works.approachAct_of_traverse {p : PassWork} {e : KerfEntry} (h : x.wire = .threaded ∧ x.moveRoom = true)
    (he : (c.traversePart p)[p.next]? = some e) :
    w.approachAct st id c p =
      some (w.issue st (kerfMove .forward id e) fun w => w.modPass st fun p => { p with next := p.next + 1 }) := by
  simp only [Works.approachAct, hx, if_pos h, he]

theorem Works.approachAct_of_tail {p : PassWork} {e : KerfEntry} (h : x.wire = .threaded ∧ x.moveRoom = true)
    (ht : (c.traversePart p).length ≤ p.next) (he : c.nextTail p.approach = some e) :
    w.approachAct st id c p =
      some (w.issue st (cutMove p.approach e (.tailEntry id e.ordinal)) fun w =>
        (w.modContour id fun c =>
          c.modEntry e.ordinal fun e => { e with state := .tailIssued, direction := some p.approach }).modPass st
            fun p => { p with next := if e.direction.isNone then p.next + 1 else p.next }) := by
  simp only [Works.approachAct, hx, if_pos h, List.getElem?_eq_none ht, he]

theorem Works.approachAct_of_end {p : PassWork} (h : x.wire = .threaded ∧ x.moveRoom = true)
    (ht : (c.traversePart p).length ≤ p.next) (he : c.nextTail p.approach = none) : w.approachAct st id c p = none := by
  simp only [Works.approachAct, hx, if_pos h, List.getElem?_eq_none ht, he]

theorem Works.passAct_of_occupied {p : PassWork} (hs : p.step = .travel ∨ p.step = .threading) (hp : x.pair ≠ []) :
    w.passAct st id c p = none := by
  obtain travel | threading := hs
  · simp only [Works.passAct, travel, hx, if_neg hp]
  · simp only [Works.passAct, threading, hx, if_neg hp]

theorem Works.passAct_of_wire {p : PassWork} (hs : p.step = .travel) (hp : x.pair = []) (hw : x.wire ≠ .unthreaded) :
    w.passAct st id c p = some (w.issue st (.wireCut .pass) fun w => w) := by
  simp only [Works.passAct, hs, hx, if_pos hp, if_pos hw]

theorem Works.passAct_of_travel {p : PassWork} (hs : p.step = .travel) (hp : x.pair = []) (hw : x.wire = .unthreaded) :
    w.passAct st id c p = some (w.issue st (travelTo c (w.firstFeed st id c) .passTravel) fun w => w) := by
  simp only [Works.passAct, hs, hx, if_pos hp, if_neg (not_not_intro hw)]

theorem Works.passAct_of_threading {p : PassWork} (hs : p.step = .threading) (hp : x.pair = []) :
    w.passAct st id c p = some (w.startEpisode st .startHole id c) := by
  simp only [Works.passAct, hs, hx, if_pos hp]

omit hx in
theorem Works.passAct_of_approach {p : PassWork} (hs : p.step = .approach) :
    w.passAct st id c p = w.approachAct st id c p := by
  simp only [Works.passAct, hs]

omit hx in
theorem Works.passAct_of_closing {p : PassWork} (hs : p.step = .closing) : w.passAct st id c p = none := by
  simp only [Works.passAct, hs]

theorem Works.closingAct_of_uncut {k : Closing} (hk : x.closing = some k) (hc : k.cutReceived = false) (hp : x.pair = []) :
    w.closingAct st = some (w.issue st (.wireCut .closing) fun w => w) := by
  simp only [Works.closingAct, hx, hk, if_pos (And.intro hc hp)]

theorem Works.closingAct_eq_none (h : ∀ k, x.closing = some k → ¬(k.cutReceived = false ∧ x.pair = [])) :
    w.closingAct st = none := by
  simp only [Works.closingAct, hx]
  split
  case h_1 k hk => exact if_neg (h k hk)
  case h_2 => rfl

end

/-! ## The current contour (R154) -/

section

include hx

omit hx in
theorem Works.contourAct_of_failing (h : c.prog.pendingFailure ≠ none) : w.contourAct st id c = none :=
  if_pos (Option.isSome_iff_ne_none.mpr h)

theorem Works.contourAct_of_free (h : c.prog.pendingFailure = none) :
    w.contourAct st id c =
      match x.recovery with
      | some r => w.recoveryAct st id c r
      | none =>
        match x.tc.episode with
        | some e => w.threadAct st e
        | none =>
          match c.state with
          | .entering => w.entryAct st id c
          | .cutting => w.mainAct st id c
          | .tabCutting => (w.tailWork st id).bind fun p => w.passAct st id c p
          | .closing => w.closingAct st
          | .defined | .queued | .tailIntake | .deferred | .complete | .failed | .aborted => none := by
  have free : ¬c.prog.pendingFailure.isSome = true := by rw [h]; nofun
  simp only [Works.contourAct, hx, if_neg free] <;> rfl

theorem Works.contourAct_of_recovery {r : Recovery} (h : c.prog.pendingFailure = none) (hr : x.recovery = some r) :
    w.contourAct st id c = w.recoveryAct st id c r := by
  rw [Works.contourAct_of_free hx h, hr]

theorem Works.contourAct_of_episode {e : Episode} (h : c.prog.pendingFailure = none) (hr : x.recovery = none)
    (he : x.tc.episode = some e) : w.contourAct st id c = w.threadAct st e := by
  rw [Works.contourAct_of_free hx h, hr, he]

section

variable (h : c.prog.pendingFailure = none) (hr : x.recovery = none) (he : x.tc.episode = none)
include h hr he

theorem Works.contourAct_of_entering (hs : c.state = .entering) : w.contourAct st id c = w.entryAct st id c := by
  rw [Works.contourAct_of_free hx h, hr, he, hs]

theorem Works.contourAct_of_cutting (hs : c.state = .cutting) : w.contourAct st id c = w.mainAct st id c := by
  rw [Works.contourAct_of_free hx h, hr, he, hs]

theorem Works.contourAct_of_tabCutting (hs : c.state = .tabCutting) :
    w.contourAct st id c = (w.tailWork st id).bind fun p => w.passAct st id c p := by
  rw [Works.contourAct_of_free hx h, hr, he, hs]

theorem Works.contourAct_of_closing (hs : c.state = .closing) : w.contourAct st id c = w.closingAct st := by
  rw [Works.contourAct_of_free hx h, hr, he, hs]

/-- In any other state the contour asks for nothing. -/
theorem Works.contourAct_eq_none (h1 : c.state ≠ .entering) (h2 : c.state ≠ .cutting) (h3 : c.state ≠ .tabCutting)
    (h4 : c.state ≠ .closing) : w.contourAct st id c = none := by
  simp only [Works.contourAct_of_free hx h, hr, he]
  split
  · exact absurd ‹_› h1
  · exact absurd ‹_› h2
  · exact absurd ‹_› h3
  · exact absurd ‹_› h4
  all_goals rfl

end

/-- The current contour of an ACTIVE station whose work is not stopped is given its work. -/
theorem Works.act_of_contour (hs : x.state = .active) (ha : x.stopAwaited = false) (hr : x.returned = [])
    (hi : x.current = some id) (hc : w.contour? id = some c) (ht : c.state ≠ .tailIntake) :
    w.act st = w.contourAct st id c := by
  have current : w.current? st = some (id, c) := Works.current?_of_record (by rw [hx, hi]) hc
  have intake : w.intakeAct st = none := Works.intakeAct_eq_none fun j d hj => by
    cases current.symm.trans hj
    exact ht
  rw [Works.act_of_active hx hs, Works.activeAct_of_contour hx intake ha hr current]

/-- The station with no current contour looks for what comes next. -/
theorem Works.act_of_no_contour (hs : x.state = .active) (ha : x.stopAwaited = false) (hr : x.returned = [])
    (hi : x.current = none) : w.act st = w.idleAct st := by
  have current : w.current? st = none := by rw [Works.current?, hx, hi]
  have intake : w.intakeAct st = none := Works.intakeAct_eq_none fun j d hj => absurd (current.symm.trans hj) nofun
  rw [Works.act_of_active hx hs, Works.activeAct_of_idle hx intake ha hr current]

end

/-! ## Between contours (R64, R75 to R77, R132, R153) -/

section

include hx

theorem Works.travelAct_of_room {e : QEntry} (hw : x.wire = .unthreaded) (hr : x.moveRoom = true) :
    w.travelAct st e =
      some (w.issue st (.move .travel .forward 0 e.seg (.directive e.mark)) fun w => w.takeDirective st e .travelling) := by
  simp only [Works.travelAct, hx, hw, if_pos hr]

theorem Works.travelAct_of_no_room {e : QEntry} (hw : x.wire = .unthreaded) (hr : ¬x.moveRoom = true) :
    w.travelAct st e = none := by
  simp only [Works.travelAct, hx, hw, if_neg hr]

theorem Works.travelAct_of_cut {e : QEntry} (hw : x.wire = .unknown ∨ x.wire = .broken) (hp : x.pair = []) :
    w.travelAct st e =
      some (w.issue st (.wireCut .directive) fun w => w.upd st fun x => { x with activity := .travelling }) := by
  obtain unknown | broken := hw
  · simp only [Works.travelAct, hx, unknown, if_pos hp]
  · simp only [Works.travelAct, hx, broken, if_pos hp]

theorem Works.travelAct_of_occupied {e : QEntry} (hw : x.wire = .unknown ∨ x.wire = .broken) (hp : x.pair ≠ []) :
    w.travelAct st e = none := by
  obtain unknown | broken := hw
  · simp only [Works.travelAct, hx, unknown, if_neg hp]
  · simp only [Works.travelAct, hx, broken, if_neg hp]

theorem Works.travelAct_of_threaded {e : QEntry} (hw : x.wire = .threaded) : w.travelAct st e = none := by
  simp only [Works.travelAct, hx, hw]

omit hx in
theorem Works.headAct_of_travel {e : QEntry} (h : e.seg.kind = .travel) : w.headAct st e = w.travelAct st e := by
  simp only [Works.headAct, h]

theorem Works.headAct_of_dwell {e : QEntry} (h : e.seg.kind = .dwell) :
    w.headAct st e =
      if x.pair = [] then some (w.issue st (.dwell e.seg.length e.mark) fun w => w.takeDirective st e .dwelling)
      else none := by
  simp only [Works.headAct, hx, h]

/-- A head that issues no operation starts with the pair empty. -/
theorem Works.headAct_of_start {e : QEntry} (ht : e.seg.kind ≠ .travel) (hd : e.seg.kind ≠ .dwell) :
    w.headAct st e = if x.pair = [] then w.headStarts st e else none := by
  simp only [Works.headAct, hx]
  split
  · exact absurd ‹_› ht
  · exact absurd ‹_› hd
  all_goals rfl

theorem Works.idleAct_of_cut_due_occupied (h : x.failureCutDue = true) (hp : x.pair ≠ []) : w.idleAct st = none := by
  simp only [Works.idleAct, hx, if_pos h, if_neg hp]

theorem Works.idleAct_of_cut_done (h : x.failureCutDue = true) (hp : x.pair = []) (hw : x.wire = .unthreaded) :
    w.idleAct st = some (w.upd st fun x => { x with failureCutDue := false }) := by
  simp only [Works.idleAct, hx, if_pos h, if_pos hp, if_pos hw]

theorem Works.idleAct_of_cut_due (h : x.failureCutDue = true) (hp : x.pair = []) (hw : x.wire ≠ .unthreaded) :
    w.idleAct st =
      some (w.issue st (.wireCut .failure) fun w => w.upd st fun x => { x with failureCutDue := false }) := by
  simp only [Works.idleAct, hx, if_pos h, if_pos hp, if_neg hw]

section

variable (h : x.failureCutDue = false)
include h

theorem Works.idleAct_of_pass {r : PassRecord} (hr : x.pass = some r) :
    w.idleAct st =
      if x.pair = [] then
        match x.deferred with
        | id :: rest => some (w.startPassContour st id rest)
        | [] => some (w.endPass st r.trigger)
      else none := by
  simp only [Works.idleAct, hx, h, Bool.false_eq_true, if_false, hr] <;> rfl

theorem Works.idleAct_of_pass_contour {r : PassRecord} {rest : List Nat} (hr : x.pass = some r) (hp : x.pair = [])
    (hd : x.deferred = id :: rest) : w.idleAct st = some (w.startPassContour st id rest) := by
  simp only [Works.idleAct_of_pass hx h hr, if_pos hp, hd]

theorem Works.idleAct_of_pass_over {r : PassRecord} (hr : x.pass = some r) (hp : x.pair = []) (hd : x.deferred = []) :
    w.idleAct st = some (w.endPass st r.trigger) := by
  simp only [Works.idleAct_of_pass hx h hr, if_pos hp, hd]

theorem Works.idleAct_of_end {seq : Seq} (hr : x.pass = none) (hs : x.endProgram = some seq) :
    w.idleAct st = if x.pair = [] then some (w.finishProgram st seq) else none := by
  simp only [Works.idleAct, hx, h, Bool.false_eq_true, if_false, hr, hs]

theorem Works.idleAct_of_empty (hr : x.pass = none) (hs : x.endProgram = none) (hq : x.adm.queue = []) :
    w.idleAct st = none := by
  simp only [Works.idleAct, hx, h, Bool.false_eq_true, if_false, hr, hs, hq]

theorem Works.idleAct_of_head {e : QEntry} {rest : List QEntry} (hr : x.pass = none) (hs : x.endProgram = none)
    (hq : x.adm.queue = e :: rest) : w.idleAct st = w.headAct st e := by
  simp only [Works.idleAct, hx, h, Bool.false_eq_true, if_false, hr, hs, hq]

end

/-! ## A teardown (R158, R159) -/

theorem Works.teardownAct_eq_none (h : x.pair ≠ [] ∨ x.stopAwaited = true) : w.teardownAct st = none := by
  have busy : ¬(x.pair = [] ∧ x.stopAwaited = false) := fun ⟨empty, still⟩ =>
    h.elim (fun pair => pair empty) fun awaited => absurd (awaited.symm.trans still) nofun
  simp only [Works.teardownAct, hx, if_neg busy]

theorem Works.teardownAct_of_wire (hp : x.pair = []) (hs : x.stopAwaited = false)
    (hw : x.wire = .threaded ∨ x.wire = .broken) :
    w.teardownAct st = some (w.issue st (.wireCut .teardown) fun w => w) := by
  obtain threaded | broken := hw
  · simp only [Works.teardownAct, hx, if_pos (And.intro hp hs), threaded]
  · simp only [Works.teardownAct, hx, if_pos (And.intro hp hs), broken]

theorem Works.teardownAct_of_clear (hp : x.pair = []) (hs : x.stopAwaited = false)
    (hw : x.wire = .unknown ∨ x.wire = .unthreaded) : w.teardownAct st = some (w.clearProgram st) := by
  obtain unknown | unthreaded := hw
  · simp only [Works.teardownAct, hx, if_pos (And.intro hp hs), unknown]
  · simp only [Works.teardownAct, hx, if_pos (And.intro hp hs), unthreaded]

end

end

end Sys2Proof.Machine
end

section
/-! PROOFS. O55: recoveries and tab passes take their steps (R121 to R125, R131 to R135, R139). -/

namespace Sys2Proof.Machine

/-! ## The kerf record, asked (R69, R92, R117, R134) -/

theorem Contour.lowestPending_eq_none_iff (c : Contour) : c.lowestPending = none ↔ ∀ e ∈ c.kerf, e.state ≠ .pending := by
  simp only [Contour.lowestPending, List.find?_eq_none, beq_iff_eq, ne_eq]

theorem Contour.lowestPending_isSome_iff (c : Contour) :
    c.lowestPending.isSome = true ↔ ∃ e ∈ c.kerf, e.state = .pending := by
  rw [Option.isSome_iff_ne_none, ne_eq, Contour.lowestPending_eq_none_iff]
  simp only [ne_eq, Classical.not_forall, Classical.not_not, exists_prop]

theorem Contour.atTab_iff (c : Contour) : c.atTab = true ↔ c.plan.tabOrdinal? = some (c.h + 1) := decide_eq_true_iff

theorem Contour.atTab_eq_false_iff (c : Contour) : c.atTab = false ↔ c.plan.tabOrdinal? ≠ some (c.h + 1) :=
  decide_eq_false_iff_not

theorem Contour.needsCutting_of_cutting {c : Contour} (h : c.state = .cutting) :
    c.needsCutting = true ↔ c.mainEnded = false
      ∧ ((∃ e ∈ c.kerf, e.state = .pending)
        ∨ (c.prog.cursor < c.cfg.segments ∧ c.plan.tabOrdinal? ≠ some (c.h + 1))) := by
  simp only [Contour.needsCutting, h, Bool.and_eq_true, Bool.not_eq_true', Bool.or_eq_true, decide_eq_true_eq,
    c.lowestPending_isSome_iff, c.atTab_eq_false_iff]

theorem Contour.needsCutting_of_tabCutting {c : Contour} (h : c.state = .tabCutting) :
    c.needsCutting = true ↔ ∃ e ∈ c.kerf, e.state = .tail ∨ e.state = .tailIssued := by
  have uncut (e : KerfEntry) : ¬(!e.state.isTail || e.state == .tailCut) = true ↔ e.state = .tail ∨ e.state = .tailIssued := by
    cases e.state <;> decide
  simp only [Contour.needsCutting, h, Contour.tailAllCut, Bool.not_eq_true', List.all_eq_false, uncut]

theorem Contour.needsCutting_of_other {c : Contour} (hc : c.state ≠ .cutting) (ht : c.state ≠ .tabCutting) :
    c.needsCutting = false := by
  unfold Contour.needsCutting
  split
  · exact absurd ‹_› hc
  · exact absurd ‹_› ht
  all_goals rfl

theorem Contour.cutUpTo_eq (c : Contour) (bound : Nat) :
    c.cutUpTo bound = c.kerf.filter fun e => decide (e.state = .cut ∧ e.ordinal ≤ bound) :=
  List.filter_congr fun e _ => by
    rw [Bool.decide_and]
    cases e.state <;> rfl

theorem Contour.traversePart_eq (c : Contour) (p : PassWork) :
    c.traversePart p = c.kerf.filter fun e =>
      decide (e.state = .cut ∧ e.ordinal ≤ if p.approach = .forward then p.t - 1 else c.cfg.leadIn) := by
  unfold Contour.traversePart
  split
  case h_1 h => rw [Contour.cutUpTo_eq, if_pos h]
  case h_2 h => rw [Contour.cutUpTo_eq, if_neg (by rw [h]; nofun)]

/-- A TAIL entry is found among the tail entries or in the record alike. -/
theorem KerfState.isTail_and_tail (s : KerfState) : s.isTail = true ∧ (s == .tail) = true ↔ s = .tail := by
  cases s <;> decide

theorem Contour.nextTail_forward (c : Contour) : c.nextTail .forward = c.kerf.find? fun e => decide (e.state = .tail) := by
  simp only [Contour.nextTail, Contour.tailOrder, List.find?_filter, KerfState.isTail_and_tail]

theorem Contour.nextTail_reverse (c : Contour) :
    c.nextTail .reverse = c.kerf.reverse.find? fun e => decide (e.state = .tail) := by
  simp only [Contour.nextTail, Contour.tailOrder, ← List.filter_reverse, List.find?_filter, KerfState.isTail_and_tail]

/-- The tail entries of an approach that are TAIL_CUT, in its order. -/
theorem Contour.tailCut_filter (c : Contour) (approach : Direction) :
    (c.tailOrder approach).filter (fun e => e.state == .tailCut)
      = (if approach = .forward then c.kerf else c.kerf.reverse).filter fun e => decide (e.state = .tailCut) := by
  have both (e : KerfEntry) : (e.state == .tailCut && e.state.isTail) = decide (e.state = .tailCut) := by
    cases e.state <;> rfl
  cases approach with
  | forward => simp only [Contour.tailOrder, List.filter_filter, both, if_true]
  | reverse =>
    simp only [Contour.tailOrder, ← List.filter_reverse, List.filter_filter, both, reduceCtorEq, if_false]

theorem Works.tailWork_of_pass {w : Works} {st : St} {id : Nat} {trigger : PassTrigger} {p : PassWork}
    (h : (w.station st).pass = some { trigger := trigger, work := some p }) (hp : p.contour = id) :
    w.tailWork st id = some p := by
  simp only [Works.tailWork, h, Option.filter, beq_iff_eq, hp, if_true]

theorem Works.tailWork_of_not_inPass {w : Works} {st : St} {id : Nat} (h : (w.station st).inPass id = false) :
    w.tailWork st id = none := by
  rw [← Option.isNone_iff_eq_none, ← Option.isSome_eq_false_iff, Works.tailWork_isSome, h]

/-! ## O55 -/

/-- The travel to the thread point, in its feed class, written out (R66, R124, R133). -/
theorem travelTo_firstFeed (w : Works) (st : St) (id : Nat) (c : Contour) (work : MoveWork) :
    travelTo c (w.firstFeed st id c) work =
      .move .travel .forward 0
        { kind := .travel, length := 0, endX := c.cfg.threadX, endY := c.cfg.threadY, centre := none, taper := none
          feed := match c.entry? 1 with
            | some e => e.seg.feed
            | none =>
              match (w.station st).adm.queue.find? fun e => e.first && e.contour == id with
              | some e => e.seg.feed
              | none => 0 } work := rfl

/-! ### The records a recovery and a pass keep -/

theorem Works.modRecovery_of_record {w : Works} {st : St} {r : Recovery} (hr : (w.station st).recovery = some r)
    (f : Recovery → Recovery) : w.modRecovery st f = w.upd st fun x => { x with recovery := some (f r) } :=
  Works.upd_congr _ _ (by simp only [hr, Option.map_some])

theorem Works.modPass_of_record {w : Works} {st : St} {trigger : PassTrigger} {p : PassWork}
    (h : (w.station st).pass = some { trigger := trigger, work := some p }) (f : PassWork → PassWork) :
    w.modPass st f = w.upd st fun x => { x with pass := some { trigger := trigger, work := some (f p) } } :=
  Works.upd_congr _ _ (by simp only [h, Option.map_some])

/-- The works of a station at its current contour's work: what its sequencer does next is what the contour asks for. -/
structure Works.AtWork (w : Works) (st : St) (id : Nat) (c : Contour) : Prop where
  state : (w.station st).state = .active
  stopAwaited : (w.station st).stopAwaited = false
  returned : (w.station st).returned = []
  current : (w.station st).current = some id
  contour : w.contour? id = some c
  free : c.prog.pendingFailure = none
  tail : c.state ≠ .tailIntake

namespace Works.AtWork

section

variable {w : Works} {st : St} {id : Nat} {c : Contour} (h : w.AtWork st id c)

include h

theorem act_eq : w.act st = w.contourAct st id c :=
  Works.act_of_contour rfl h.state h.stopAwaited h.returned h.current h.contour h.tail

/-! ### A recovery's steps (R121 to R125) -/

section

variable {r : Recovery} (hr : (w.station st).recovery = some r)

include hr

theorem act_of_recovery : w.act st = w.recoveryAct st id c r :=
  h.act_eq.trans (Works.contourAct_of_recovery rfl h.free hr)

theorem act_of_due_cut (hs : r.step = .due) (hp : (w.station st).pair = []) (hc : c.needsCutting = true)
    (hl : (w.station st).linkUp = true) :
    w.act st = some ((w.upd st fun x =>
      { x with recovery := some { r with step := .wireCut }, activity := .recovering }).upd st fun x =>
        x.push (.wireCut .recovery)) := by
  rw [h.act_of_recovery hr, Works.recoveryAct_of_due_cut rfl hs hp hc, Works.issue_of_up hl,
    Works.modRecovery_of_record hr, Works.upd_upd, Works.upd_upd, Works.upd_upd]

theorem act_of_due_free (hs : r.step = .due) (hp : (w.station st).pair = []) (hc : c.needsCutting = false) :
    w.act st = some (w.upd st fun x =>
      { x with recovery := none, activity := c.returnsTo x.pass.isSome }) := by
  rw [h.act_of_recovery hr, Works.recoveryAct_of_due_free rfl hs hp hc, Works.workActivity_returnsTo h.current h.contour]
  exact congrArg some (Works.upd_congr _ _ rfl)

theorem act_of_recovery_travel (hs : r.step = .travel) (hp : (w.station st).pair = [])
    (hl : (w.station st).linkUp = true) :
    w.act st = some (w.upd st fun x => x.push (travelTo c (w.firstFeed st id c) .recoveryTravel)) := by
  rw [h.act_of_recovery hr, Works.recoveryAct_of_travel rfl hs hp, Works.issue_of_up hl]

theorem act_of_recovery_episode (hs : r.step = .startHole ∨ r.step = .inKerf) (hp : (w.station st).pair = [])
    (he : (w.station st).tc.episode = none) :
    w.act st = some (w.startEpisode st (if r.step = .inKerf then .inKerf else .startHole) id c) := by
  rw [h.act_of_recovery hr, Works.recoveryAct_of_no_episode rfl hs.symm he, if_pos hp]

/-- The next KERF move of the traverse list, the last of which ends the recovery. -/
theorem act_of_traverse {n : Nat} {d : Direction} {e : KerfEntry} (hs : r.step = .traverse) (hn : r.next = some n)
    (he : (w.traverseList st id c)[n]? = some (d, e)) (hw : (w.station st).wire = .threaded)
    (hm : (w.station st).moveRoom = true) (hl : (w.station st).linkUp = true) :
    w.act st = some
      ((if n + 1 < (w.traverseList st id c).length then
          w.upd st fun x => { x with recovery := some { r with next := some (n + 1) } }
        else w.endRecovery st).upd st fun x => x.push (kerfMove d id e)) := by
  rw [h.act_of_recovery hr, Works.recoveryAct_of_traverse hs, hn]
  dsimp only [Option.getD_some]
  rw [Works.traverseAct_of_move rfl hw hm he, Works.issue_of_up hl, Works.modRecovery_of_record hr]

theorem act_of_traversed {n : Nat} (hs : r.step = .traverse) (hn : r.next = some n)
    (he : (w.traverseList st id c).length ≤ n) (hw : (w.station st).wire = .threaded)
    (hm : (w.station st).moveRoom = true) : w.act st = some (w.endRecovery st) := by
  rw [h.act_of_recovery hr, Works.recoveryAct_of_traverse hs, hn]
  exact Works.traverseAct_of_last rfl hw hm he

end

/-! ### A pass contour's steps (R133 to R135) -/

section

variable {trigger : PassTrigger} {p : PassWork} (hr : (w.station st).recovery = none)
  (he : (w.station st).tc.episode = none) (hs : c.state = .tabCutting)
  (hp : (w.station st).pass = some { trigger := trigger, work := some p }) (hi : p.contour = id)

include hr he hs hp hi

theorem act_of_pass : w.act st = w.passAct st id c p := by
  rw [h.act_eq, Works.contourAct_of_tabCutting rfl h.free hr he hs, Works.tailWork_of_pass hp hi]
  rfl

theorem act_of_pass_travel (ht : p.step = .travel) (empty : (w.station st).pair = [])
    (hl : (w.station st).linkUp = true) :
    w.act st = some (if (w.station st).wire = .unthreaded then
        w.upd st fun x => x.push (travelTo c (w.firstFeed st id c) .passTravel)
      else w.upd st fun x => x.push (.wireCut .pass)) := by
  rw [h.act_of_pass hr he hs hp hi]
  split
  case isTrue hw => rw [Works.passAct_of_travel rfl ht empty hw, Works.issue_of_up hl]
  case isFalse hw => rw [Works.passAct_of_wire rfl ht empty hw, Works.issue_of_up hl]

theorem act_of_pass_threading (ht : p.step = .threading) (empty : (w.station st).pair = []) :
    w.act st = some (w.startEpisode st .startHole id c) := by
  rw [h.act_of_pass hr he hs hp hi, Works.passAct_of_threading rfl ht empty]

theorem act_of_approach {e : KerfEntry} (ht : p.step = .approach) (hn : (c.traversePart p)[p.next]? = some e)
    (hw : (w.station st).wire = .threaded) (hm : (w.station st).moveRoom = true) (hl : (w.station st).linkUp = true) :
    w.act st = some ((w.upd st fun x =>
      { x with pass := some { trigger := trigger, work := some { p with next := p.next + 1 } } }).upd st fun x =>
        x.push (kerfMove .forward id e)) := by
  rw [h.act_of_pass hr he hs hp hi, Works.passAct_of_approach ht, Works.approachAct_of_traverse rfl ⟨hw, hm⟩ hn,
    Works.issue_of_up hl, Works.modPass_of_record hp]

theorem act_of_approach_tail {e : KerfEntry} (ht : p.step = .approach) (hn : (c.traversePart p).length ≤ p.next)
    (hq : c.nextTail p.approach = some e) (hw : (w.station st).wire = .threaded)
    (hm : (w.station st).moveRoom = true) (hl : (w.station st).linkUp = true) :
    w.act st = some (((w.modContour id fun c =>
        c.modEntry e.ordinal fun e => { e with state := .tailIssued, direction := some p.approach }).upd st fun x =>
      { x with
        pass := some
          { trigger := trigger
            work := some { p with next := if e.direction = none then p.next + 1 else p.next } } }).upd st fun x =>
        x.push (cutMove p.approach e (.tailEntry id e.ordinal))) := by
  have kept : ((w.modContour id fun c =>
      c.modEntry e.ordinal fun e => { e with state := .tailIssued, direction := some p.approach }).station st).pass
        = some { trigger := trigger, work := some p } := hp
  rw [h.act_of_pass hr he hs hp hi, Works.passAct_of_approach ht, Works.approachAct_of_tail rfl ⟨hw, hm⟩ hn hq,
    Works.issue_of_up hl, Works.modPass_of_record kept]
  simp only [Option.isNone_iff_eq_none]

end

end

end Works.AtWork

/-! ### A pass between its contours (R132, R133) -/

theorem Works.modContour_upd (w : Works) (st : St) (id : Nat) (f : Station → Station) (g : Contour → Contour) :
    (w.modContour id g).upd st f = (w.upd st f).modContour id g := rfl

/-- The contour at the head of the list becomes TAB_CUTTING and current. -/
theorem Works.startPassContour_of_tab {w : Works} {st : St} {id : Nat} {rest : List Nat} {c : Contour} {t : Nat}
    {approach : Direction} {confirm : Confirm} {r : PassRecord} (hp : (w.station st).pass = some r)
    (hc : w.contour? id = some c) (hm : c.plan.mode = .tab t approach confirm) :
    w.startPassContour st id rest =
      (w.modContour id fun c => { c with state := .tabCutting }).upd st fun x =>
        { x with
          deferred := rest, current := some id
          pass := some
            { r with work := some { contour := id, t := t, approach := approach, step := .travel, next := 0 } } } := by
  simp only [Works.startPassContour, hc, hm]
  rw [← Works.modContour_upd, Works.upd_upd]
  exact Works.upd_congr _ _ (by simp only [Works.modContour_station, hp, Option.map_some])

theorem Works.endPass_of_unforced {w : Works} {st : St} {trigger : PassTrigger} (h : trigger = .tabs ∨ trigger = .endProgram) :
    w.endPass st trigger = w.upd st fun x => { x with pass := none, activity := .waiting } := by
  obtain rfl | rfl := h <;> rfl

/-- With no entry waiting for it a forced pass just ends. -/
theorem Works.endPass_of_nobody {w : Works} {st : St} {trigger : PassTrigger}
    (h : ∀ e, (w.station st).adm.queue.head? = some e → w.contour? e.contour = none) :
    w.endPass st trigger = w.upd st fun x => { x with pass := none, activity := .waiting } := by
  unfold Works.endPass
  split
  case h_1 => rfl
  case h_2 => rfl
  case h_3 =>
    split
    case h_1 e rest hq => rw [h e (by rw [hq]; rfl)]
    case h_2 => rfl

theorem Works.endPass_of_entry {w : Works} {st : St} {e : QEntry} {rest : List QEntry} {c : Contour}
    (hq : (w.station st).adm.queue = e :: rest) (hc : w.contour? e.contour = some c) :
    w.endPass st .forced =
      (w.upd st fun x => { x with pass := none, activity := .waiting }).enterContour st e.contour c := by
  simp only [Works.endPass, hq, hc]

/-- Settles O55: each clause is the branch of `Works.act` it describes, taken up the path a station's state chooses. -/
theorem recoveriesAndPassesTakeTheirSteps : Obligations.RecoveriesAndPassesTakeTheirSteps := by
  unfold Obligations.RecoveriesAndPassesTakeTheirSteps
  refine ⟨fun c => ⟨Contour.needsCutting_of_cutting, Contour.needsCutting_of_tabCutting, Contour.needsCutting_of_other,
    c.traversePart_eq, c.nextTail_forward, c.nextTail_reverse⟩, fun w st id c => ⟨fun h => ?_, fun trigger p hp hi => ?_⟩, ?_⟩
  case refine_1 => rw [Works.traverseList, Works.tailWork_of_not_inPass h, Contour.cutUpTo_eq]
  case refine_2 => rw [Works.traverseList, Works.tailWork_of_pass hp hi]
                   exact congrArg (_ ++ List.map _ ·) (c.tailCut_filter p.approach)
  intro w st x issued room hs ha hret hl
  refine ⟨fun id c hi hc hf ht => ?_, fun trigger hi hd hp empty => ⟨?_, fun empty' => ?_⟩⟩
  case refine_1 =>
    have work : w.AtWork st id c := ⟨hs, ha, hret, hi, hc, hf, ht⟩
    have move (hm : room) : x.moveRoom = true := (x.moveRoom_iff).mpr hm
    intro travel
    refine ⟨fun r hr => ⟨?_, ?_, ?_, ?_, ?_, ?_, ?_⟩, fun trigger p hr he hs' hp hpi => ?_⟩
    · exact fun due empty needs => work.act_of_due_cut hr due empty needs hl
    · exact fun due empty needs => work.act_of_due_free hr due empty needs
    · exact fun step => (work.act_of_recovery hr).trans (Works.recoveryAct_of_wireCut step)
    · exact fun step empty => work.act_of_recovery_travel hr step empty hl
    · exact fun step empty none => work.act_of_recovery_episode hr step empty none
    · intro n d e step next entry wire hm
      refine ⟨_, work.act_of_traverse hr step next entry wire (move hm) hl, fun more => if_pos more, fun last => ?_⟩
      rw [if_neg (Nat.not_lt.mpr last)]
      exact Works.endRecovery_ends hi hc
    · intro n step next last wire hm
      exact ⟨_, work.act_of_traversed hr step next last wire (move hm), Works.endRecovery_ends hi hc⟩
    · exact ⟨fun step empty => work.act_of_pass_travel hr he hs' hp hpi step empty hl,
        fun step empty => work.act_of_pass_threading hr he hs' hp hpi step empty,
        fun e step entry wire hm => work.act_of_approach hr he hs' hp hpi step entry wire (move hm) hl,
        fun e step past entry wire hm => work.act_of_approach_tail hr he hs' hp hpi step past entry wire (move hm) hl⟩
  case refine_2 =>
    intro id rest c t approach confirm hq hc hm
    have idle : w.act st = w.idleAct st := Works.act_of_no_contour rfl hs ha hret hi
    rw [idle, Works.idleAct_of_pass_contour rfl hd hp empty hq, Works.startPassContour_of_tab hp hc hm]
  case refine_3 =>
    intro ended
    have ended_act : w.act st = some (w.endPass st trigger) :=
      (Works.act_of_no_contour rfl hs ha hret hi).trans (Works.idleAct_of_pass_over rfl hd hp empty empty')
    refine ⟨?_, fun e rest c forced hq hc => ?_⟩
    · rintro (tabs | endProgram | nothing | unknown)
      · rw [ended_act, Works.endPass_of_unforced (.inl tabs)]
      · rw [ended_act, Works.endPass_of_unforced (.inr endProgram)]
      · rw [ended_act, Works.endPass_of_nobody fun e he => absurd he (by rw [nothing]; nofun)]
      · rw [ended_act, Works.endPass_of_nobody unknown]
    · rw [ended_act, forced, Works.endPass_of_entry hq hc]
      rfl

end Sys2Proof.Machine
end

section
/-! PROOFS. What leaves a station's issue pair and its next issue number as they are (R57). -/

namespace Sys2Proof.Machine

/-- Station `st` has issued nothing and lost nothing: its pair and its next issue number are as they were. -/
def Works.Still (w : Works) (st : St) (v : Works) : Prop :=
  (v.station st).pair = (w.station st).pair ∧ (v.station st).nextIssue = (w.station st).nextIssue

namespace Works.Still

variable {w v : Works} {st : St}

theorem refl (w : Works) (st : St) : w.Still st w := ⟨rfl, rfl⟩

theorem trans {u : Works} (h : w.Still st v) (h' : v.Still st u) : w.Still st u :=
  ⟨h'.1.trans h.1, h'.2.trans h.2⟩

/-! ## The rules of the state's operations -/

theorem upd (h : w.Still st v) {f : Station → Station} (hp : (f (v.station st)).pair = (v.station st).pair)
    (hn : (f (v.station st)).nextIssue = (v.station st).nextIssue) : w.Still st (v.upd st f) :=
  h.trans ⟨by rw [Works.station_upd_same, hp], by rw [Works.station_upd_same, hn]⟩

/-- What changes no station. -/
theorem parts {u : Works} (h : w.Still st v) (hs : u.stations = v.stations) : w.Still st u := by
  unfold Works.Still Works.station
  rw [hs]
  exact h

theorem modContour (h : w.Still st v) {id : Nat} {g : Contour → Contour} : w.Still st (v.modContour id g) := h.parts rfl

theorem raise (h : w.Still st v) {n : Nat} : w.Still st (v.raise n) := h.parts rfl

theorem report (h : w.Still st v) {b : ReportBody} : w.Still st (v.report st b) := by
  obtain ⟨rs, lost, hs⟩ := Works.report_station v st b
  exact h.trans ⟨by rw [hs], by rw [hs]⟩

theorem markReports (h : w.Still st v) {ms : List MarkRef} {o : MarkOutcome} : w.Still st (v.markReports st ms o) := by
  obtain ⟨handles, rs, lost, hs⟩ := Works.markReports_station v st ms o
  exact h.trans ⟨by rw [hs], by rw [hs]⟩

theorem markReport? (h : w.Still st v) {m : Option MarkRef} {o : MarkOutcome} : w.Still st (v.markReport? st m o) := by
  cases m with
  | none => exact h
  | some m => exact h.markReports (ms := [m])

theorem progressUpdate (h : w.Still st v) : w.Still st (v.progressUpdate st) := by
  obtain ⟨rs, lost, hs⟩ := Works.progressUpdate_station v st
  exact h.trans ⟨by rw [hs], by rw [hs]⟩

theorem consumeHead (h : w.Still st v) : w.Still st (v.consumeHead st) := by
  unfold Works.consumeHead
  split
  · exact h
  · exact (h.upd rfl rfl).progressUpdate

theorem addHolds (h : w.Still st v) {rs : Holds} {code : Option Byte} {cause : Option Cause} :
    w.Still st (v.addHolds st rs code cause) := by
  obtain ⟨holds, state, stop, reports, lost, hs⟩ := Works.addHolds_station v st rs code cause
  exact h.trans ⟨by rw [hs], by rw [hs]⟩

theorem release (h : w.Still st v) {id : Nat} : w.Still st (v.release id) := by
  obtain ⟨handles, a, rs, lost, hs⟩ := Works.release_station v id st
  exact h.trans ⟨by rw [hs], by rw [hs]⟩

theorem requestReservation (h : w.Still st v) {id need : Nat} : w.Still st (v.requestReservation st id need) := by
  unfold Works.requestReservation
  split
  · exact h.parts rfl
  · have waits : w.Still st { v with
        pool := { v.pool with waiting := v.pool.waiting.set st (some { contour := id, need := need }) } } := h.parts rfl
    exact (waits.upd rfl rfl).report.raise

theorem reportContourEnd (h : w.Still st v) {id : Nat} : w.Still st (v.reportContourEnd st id) := by
  unfold Works.reportContourEnd
  split
  · exact h
  · exact h.report

/-! ## Failures and episodes -/

theorem discardContour (h : w.Still st v) {id : Nat} : w.Still st (v.discardContour st id) := by
  unfold Works.discardContour
  extract_lets mine
  split
  · exact h
  · exact (h.markReports.upd rfl rfl).progressUpdate

theorem failSkip (h : w.Still st v) {id : Nat} {cause : Cause} : w.Still st (v.failSkip st id cause) :=
  ((h.modContour.upd rfl rfl).discardContour.release.upd rfl rfl).reportContourEnd

theorem failContour (h : w.Still st v) {cause : Cause} {code : Option Byte} : w.Still st (v.failContour st cause code) := by
  unfold Works.failContour
  split
  · exact h
  · split
    · exact h.raise.failSkip
    · exact h.raise.modContour.addHolds

theorem endEpisode (h : w.Still st v) {out : ThreadOutcome} : w.Still st (v.endEpisode st out) := by
  unfold Works.endEpisode
  split
  · exact h
  · have ended := (h.upd (f := fun x => { x with tc := { x.tc with
        state := .idle, ok := out == .threaded, fail := out != .threaded, episode := none } }) rfl rfl)
    cases out
    case threaded | aborted => exact ended.report
    case threadAttempts | adjLimit | lockout => exact ended.report.raise

theorem episodeFails (h : w.Still st v) {out : ThreadOutcome} : w.Still st (v.episodeFails st out) := by
  unfold Works.episodeFails
  split
  · exact h
  · split
    · exact h.endEpisode.upd rfl rfl
    · exact h.endEpisode.failContour

theorem startEpisode (h : w.Still st v) {kind : EpisodeKind} {id : Nat} {c : Contour} :
    w.Still st (v.startEpisode st kind id c) := by
  have due {u : Works} (h : w.Still st u) : w.Still st (u.attemptDue st) := by
    unfold Works.attemptDue
    split
    · exact h
    · split
      · exact h.episodeFails
      · exact h.upd rfl rfl
  exact due (h.upd rfl rfl)

theorem endRecovery (h : w.Still st v) : w.Still st (v.endRecovery st) := by
  unfold Works.endRecovery
  extract_lets w1 w2
  split
  · exact (h.upd rfl rfl).upd rfl rfl
  · exact ((h.upd rfl rfl).upd rfl rfl).upd rfl rfl

theorem settleBreak (h : w.Still st v) {position : Option (Nat × Nat)} {code : Option Byte} :
    w.Still st (v.settleBreak st position code) := by
  have bare : w.Still st (v.upd st fun x =>
      { x with
        breakPending := false, wirePlace := .nowhere
        returned := x.returned.filter fun r => !r.body.isBrokenWork }) := h.upd rfl rfl
  unfold Works.settleBreak
  extract_lets place w1
  split
  · exact bare
  · extract_lets pass boundary count exceeded w2 w3 w4
    have counted : w.Still st w4 := bare.modContour.report.raise.upd rfl rfl
    split
    · exact counted.failContour
    · exact counted

theorem abortIdleEpisode (h : w.Still st v) : w.Still st (v.abortIdleEpisode st) := by
  unfold Works.abortIdleEpisode
  split
  · exact h
  · split
    · extract_lets w1
      split
      · exact h.endEpisode.upd rfl rfl
      · exact h.endEpisode
    · exact h

theorem startTeardown (h : w.Still st v) {cause : TeardownCause} : w.Still st (v.startTeardown st cause) := by
  have torn : w.Still st { v.upd st fun x =>
        { x with
          state := .aborting, holds := Holds.none, catchWait := none, returned := [], failureCutDue := false
          teardown := some cause } with
      pool := { v.pool with waiting := v.pool.waiting.set st none } } :=
    (h.upd (f := fun x =>
      { x with
        state := .aborting, holds := Holds.none, catchWait := none, returned := [], failureCutDue := false
        teardown := some cause }) rfl rfl).parts rfl
  exact torn.abortIdleEpisode.upd (Station.callStop_pair _) (Station.callStop_nextIssue _)

/-- Drive loss leaves the pair empty (R63). -/
theorem driveLoss_pair (w : Works) (st : St) : ((w.driveLoss st).station st).pair = [] := by
  let lost := w.upd st fun x =>
    { x with pair := [], stopAwaited := false, wire := .unknown, tc := { x.tc with state := .idle } }
  have empty : (lost.station st).pair = [] := by rw [Works.station_upd_same]
  suffices still : lost.Still st (w.driveLoss st) by rw [still.1, empty]
  unfold Works.driveLoss
  extract_lets w1 w2 w3
  have settled : lost.Still st w3 := by
    refine upd (f := fun x => { x with wirePlace := .nowhere }) ?_ rfl rfl
    unfold w2
    split
    · exact (refl w1 st).settleBreak
    · exact refl w1 st
  split
  · exact settled.startTeardown
  · exact settled.startTeardown
  · exact settled.abortIdleEpisode
  · exact settled

/-! ## What is taken up without an issue -/

theorem makeCurrent (h : w.Still st v) {id : Nat} : w.Still st (v.makeCurrent st id) := h.modContour.upd rfl rfl

theorem enterContour (h : w.Still st v) {id : Nat} {c : Contour} : w.Still st (v.enterContour st id c) :=
  h.makeCurrent.requestReservation

theorem dueRequest (h : w.Still st v) {id : Nat} {c : Contour} : w.Still st (v.dueRequest st id c) :=
  (h.upd rfl rfl).requestReservation

theorem startPass (h : w.Still st v) {trigger : PassTrigger} : w.Still st (v.startPass st trigger) := h.upd rfl rfl

theorem takeDirective (h : w.Still st v) {e : QEntry} {a : Activity} : w.Still st (v.takeDirective st e a) :=
  h.consumeHead.upd rfl rfl

theorem checkPassed (h : w.Still st v) {id : Nat} {c : Contour} : w.Still st (v.checkPassed st id c) := by
  have counted : w.Still st { v with freeCount := v.freeCount + 1 } := h.parts rfl
  unfold Works.checkPassed
  split
  · exact counted.enterContour
  · exact counted.makeCurrent.upd rfl rfl

theorem headStarts (h : w.Still st v) {e : QEntry} {u : Works} (hu : v.headStarts st e = some u) : w.Still st u := by
  have entry (hb : (if e.first = true then v.beginEntry st e.contour else none) = some u) : w.Still st u := by
    split at hb
    · obtain ⟨c, -, rfl⟩ := Option.map_eq_some_iff.mp hb
      split
      · exact h.startPass
      · exact h.checkPassed
    · cases hb
  unfold Works.headStarts at hu
  split at hu
  case h_1 => exact entry hu
  case h_2 => exact entry hu
  case h_3 => exact entry hu
  case h_4 =>
    cases hu
    unfold Works.tabsAct
    split
    · exact h.consumeHead.markReport?.upd rfl rfl
    · exact h.consumeHead.markReport?.startPass
  case h_5 =>
    cases hu
    unfold Works.endProgramAct
    split
    · exact h.takeDirective.upd rfl rfl
    · exact (h.takeDirective.upd rfl rfl).startPass
  case h_6 => cases hu
  case h_7 => cases hu

theorem startPassContour (h : w.Still st v) {id : Nat} {rest : List Nat} : w.Still st (v.startPassContour st id rest) := by
  have shorter : w.Still st (v.upd st fun x => { x with deferred := rest }) := h.upd rfl rfl
  unfold Works.startPassContour
  split
  · exact shorter
  · split
    · exact shorter.modContour.upd rfl rfl
    all_goals exact shorter

theorem endPass (h : w.Still st v) {trigger : PassTrigger} : w.Still st (v.endPass st trigger) := by
  have ended : w.Still st (v.upd st fun x => { x with pass := none, activity := .waiting }) := h.upd rfl rfl
  unfold Works.endPass
  split
  · exact ended
  · exact ended
  · split
    · split
      · exact ended.enterContour
      · exact ended
    · exact ended

theorem finishProgram (h : w.Still st v) {seq : Seq} : w.Still st (v.finishProgram st seq) :=
  ((h.markReports.upd rfl rfl).report).upd rfl rfl

theorem intakeAct (h : w.Still st v) {u : Works} (hu : v.intakeAct st = some u) : w.Still st u := by
  unfold Works.intakeAct at hu
  split at hu
  · split at hu
    · cases hu
      split
      · exact (h.modContour.consumeHead.modContour).upd rfl rfl
      · exact h.modContour.consumeHead
    · cases hu
  · cases hu

/-! ## While a STOP is awaited (R60, R64) -/

theorem awaitingAct (h : w.Still st v) {u : Works} (hu : v.awaitingAct st = some u) : w.Still st u := by
  have contour {id : Nat} {c : Contour} (hc : v.awaitingContourAct st id c = some u) : w.Still st u := by
    unfold Works.awaitingContourAct at hc
    extract_lets x at hc
    split at hc
    · split at hc
      · split at hc
        · cases hc
          exact h.startEpisode
        · cases hc
      · split at hc
        · split at hc
          · cases hc
          · cases hc
            exact h.dueRequest
          · split at hc
            · cases hc
              exact h.startEpisode
            · cases hc
        · cases hc
    · cases hc
  unfold Works.awaitingAct at hu
  extract_lets x at hu
  split at hu
  · split at hu
    · exact contour hu
    · split at hu
      · cases hu
      · split at hu
        · cases hu
          exact h.finishProgram
        · split at hu
          · cases hu
          · exact h.headStarts hu
  · cases hu

/-! ## The clearing of a program (R159) -/

theorem abortContours (h : w.Still st v) (ids : List Nat) {n tabs : Nat} :
    w.Still st (ids.foldl (Works.abortContour st) (v, n, tabs)).1 := by
  induction ids generalizing v n tabs with
  | nil => exact h
  | cons id ids ih =>
    simp only [List.foldl_cons, Works.abortContour]
    split
    · exact ih h
    · split
      · exact ih h.modContour.release
      · exact ih h

theorem discardQueue (h : w.Still st v) : w.Still st (v.discardQueue st) := by
  unfold Works.discardQueue
  extract_lets x w1
  split
  · exact h.markReports.upd rfl rfl
  · exact ((h.markReports.upd rfl rfl).markReports.upd rfl rfl).progressUpdate

theorem clearProgram (h : w.Still st v) : w.Still st (v.clearProgram st) :=
  ((h.discardQueue.upd rfl rfl).abortContours _).report.upd rfl rfl

end Works.Still

end Sys2Proof.Machine
end

section
/-! PROOFS. What each act of a sequencer does to the issue pair (R57, R63, R67): it leaves the pair alone, or it is one
issue, whether or not the port's link is UP. -/

namespace Sys2Proof.Machine

/-- The works with the link status of the station's port set. -/
def Works.linked (w : Works) (st : St) (up : Bool) : Works := w.upd st fun x => { x with linkUp := up }

theorem Works.linked_station (w : Works) (st : St) (up : Bool) :
    (w.linked st up).station st = { w.station st with linkUp := up } := Works.station_upd_same _ _ _

/-- The link status as it stands. -/
theorem Works.linked_self {w : Works} {st : St} {up : Bool} (h : (w.station st).linkUp = up) : w.linked st up = w :=
  Works.upd_self _ _ (by rw [← h])

theorem Works.linked_still (w : Works) (st : St) (up : Bool) : w.Still st (w.linked st up) := (Works.Still.refl w st).upd rfl rfl

theorem Works.current?_linked (w : Works) (st : St) (up : Bool) : (w.linked st up).current? st = w.current? st :=
  Works.current?_upd rfl

theorem Works.tailWork_linked (w : Works) (st : St) (up : Bool) (id : Nat) :
    (w.linked st up).tailWork st id = w.tailWork st id := by
  simp only [Works.tailWork, w.linked_station st up]

theorem Works.traverseList_linked (w : Works) (st : St) (up : Bool) (id : Nat) (c : Contour) :
    (w.linked st up).traverseList st id c = w.traverseList st id c := by
  simp only [Works.traverseList, w.tailWork_linked st up]

/-- An operation is issued, `pre` keeping the pair, and it is no CUT or KERF move unless the wire is THREADED or such a
move was returned. -/
def Works.Issues (w : Works) (st : St) (up : Bool) (o : Option Works) : Prop :=
  ∃ (body : OpBody) (pre : Works → Works), o = some ((w.linked st up).issue st body pre)
    ∧ w.Still st (pre (w.linked st up))
    ∧ (body.isCutOrKerf = true →
      (w.station st).wire = .threaded ∨ ∃ r ∈ (w.station st).returned, r.body.isCutOrKerf = true)

/-- An act leaves the pair alone, or it is an issue, whichever the link status. -/
inductive Works.Deed (w : Works) (st : St) (act : Works → Option Works) : Prop
  | still (h : ∀ up v, act (w.linked st up) = some v → w.Still st v)
  | issues (h : ∀ up, w.Issues st up (act (w.linked st up)))

namespace Works.Deed

section

variable {w : Works} {st : St} {act : Works → Option Works}

theorem rests (h : ∀ up, act (w.linked st up) = none) : w.Deed st act :=
  .still fun up _ hv => absurd ((h up).symm.trans hv) nofun

theorem takes {f : Works → Works} (h : ∀ up, act (w.linked st up) = some (f (w.linked st up)))
    (hf : ∀ v, w.Still st v → w.Still st (f v)) : w.Deed st act :=
  .still fun up v hv => by
    cases (h up).symm.trans hv
    exact hf _ (w.linked_still st up)

theorem issue {body : Bool → OpBody} {pre : Bool → Works → Works}
    (h : ∀ up, act (w.linked st up) = some ((w.linked st up).issue st (body up) (pre up)))
    (hpre : ∀ up v, w.Still st v → w.Still st (pre up v))
    (hb : ∀ up, (body up).isCutOrKerf = true →
      (w.station st).wire = .threaded ∨ ∃ r ∈ (w.station st).returned, r.body.isCutOrKerf = true) : w.Deed st act :=
  .issues fun up => ⟨body up, pre up, h up, hpre up _ (w.linked_still st up), hb up⟩

/-- An act that is another's branch. -/
theorem of_eq {act' : Works → Option Works} (h' : w.Deed st act') (h : ∀ up, act (w.linked st up) = act' (w.linked st up)) :
    w.Deed st act := by
  cases h' with
  | still hs => exact .still fun up v hv => hs up v ((h up).symm.trans hv)
  | issues hi =>
    exact .issues fun up => by
      rw [h up]
      exact hi up

end

variable (w : Works) (st : St) (id : Nat) (c : Contour)

/-! ## Episodes and recoveries -/

theorem threadAct (e : Episode) : w.Deed st fun v => v.threadAct st e := by
  by_cases h : (w.station st).tc.state = .idle ∧ (w.station st).pair = []
  case neg => exact .rests fun up => Works.threadAct_eq_none (w.linked_station st up) h
  case pos =>
    by_cases hr : e.reason = none
    · exact .issue (fun up => Works.threadAct_of_attempt (w.linked_station st up) h.1 h.2 hr) (by exact fun _ _ h => h.upd rfl rfl) (by nofun)
    · exact .issue (fun up => Works.threadAct_of_reason (w.linked_station st up) h.1 h.2 hr) (by exact fun _ _ h => h.upd rfl rfl) (by nofun)

theorem traverseAct (n : Nat) : w.Deed st fun v => v.traverseAct st id c n := by
  by_cases h : (w.station st).wire = .threaded ∧ (w.station st).moveRoom = true
  case neg => exact .rests fun up => Works.traverseAct_eq_none (w.linked_station st up) h
  case pos =>
    cases hl : (w.traverseList st id c)[n]? with
    | none =>
      have last (up : Bool) : ((w.linked st up).traverseList st id c).length ≤ n := by
        rw [w.traverseList_linked]
        exact List.getElem?_eq_none_iff.mp hl
      exact .takes (fun up => Works.traverseAct_of_last (w.linked_station st up) h.1 h.2 (last up)) fun _ h => h.endRecovery
    | some p =>
      have next (up : Bool) : ((w.linked st up).traverseList st id c)[n]? = some (p.1, p.2) := by
        rw [w.traverseList_linked, hl]
      refine .issue (fun up => Works.traverseAct_of_move (w.linked_station st up) h.1 h.2 (next up)) (fun _ _ h => ?_)
        fun _ _ => .inl h.1
      split
      · exact h.upd rfl rfl
      · exact h.endRecovery

theorem recoveryAct (r : Recovery) : w.Deed st fun v => v.recoveryAct st id c r := by
  have episode (hs : r.step = .inKerf ∨ r.step = .startHole) : w.Deed st fun v => v.recoveryAct st id c r := by
    cases he : (w.station st).tc.episode with
    | some e => exact (threadAct w st e).of_eq fun up => Works.recoveryAct_of_episode (w.linked_station st up) hs he
    | none =>
      refine .still fun up v hv => ?_
      have hv := (Works.recoveryAct_of_no_episode (w.linked_station st up) hs he).symm.trans hv
      split at hv
      · cases hv
        exact (w.linked_still st up).startEpisode
      · cases hv
  by_cases occupied : (r.step = .due ∨ r.step = .travel) ∧ (w.station st).pair ≠ []
  case pos => exact .rests fun up => Works.recoveryAct_of_occupied (w.linked_station st up) occupied.1 occupied.2
  case neg =>
    have empty (hs : r.step = .due ∨ r.step = .travel) : (w.station st).pair = [] :=
      Classical.not_not.mp fun hp => occupied ⟨hs, hp⟩
    cases hs : r.step with
    | due =>
      cases hc : c.needsCutting with
      | true =>
        exact .issue (fun up => Works.recoveryAct_of_due_cut (w.linked_station st up) hs (empty (.inl hs)) hc)
          (by exact fun _ _ h => (h.upd rfl rfl).upd rfl rfl) (by nofun)
      | false =>
        exact .takes (f := fun v => v.upd st fun x => { x with recovery := none, activity := v.workActivity st })
          (fun up => Works.recoveryAct_of_due_free (w.linked_station st up) hs (empty (.inl hs)) hc) fun _ h => h.upd rfl rfl
    | wireCut => exact .rests fun up => Works.recoveryAct_of_wireCut hs
    | travel =>
      exact .issue (fun up => Works.recoveryAct_of_travel (w.linked_station st up) hs (empty (.inr hs))) (by exact fun _ _ h => h)
        (by exact fun _ h => absurd h Bool.false_ne_true)
    | inKerf => exact episode (.inl hs)
    | startHole => exact episode (.inr hs)
    | traverse => exact (traverseAct w st id c _).of_eq fun up => Works.recoveryAct_of_traverse hs

/-! ## The entry, the main pass and a tab pass -/

theorem entrySteps : w.Deed st fun v => v.entrySteps st id c := by
  by_cases ha : (w.station st).activity = .entering
  case pos =>
    by_cases hw : (w.station st).wire = .unthreaded
    case neg =>
      exact .issue (fun up => Works.entrySteps_of_wire (w.linked_station st up) ha hw) (by exact fun _ _ h => h) (by nofun)
    case pos =>
      cases hq : (w.station st).adm.queue with
      | nil => exact .rests fun up => Works.entrySteps_of_no_frame (w.linked_station st up) ha hw hq
      | cons e rest =>
        exact .issue (fun up => Works.entrySteps_of_travel (w.linked_station st up) ha hw hq) (by exact fun _ _ h => h)
          (by exact fun _ h => absurd h Bool.false_ne_true)
  case neg =>
    by_cases ht : (w.station st).activity = .threading
    · exact .takes (f := fun v => v.startEpisode st .startHole id c)
        (fun up => Works.entrySteps_of_threading (w.linked_station st up) ht) fun _ h => h.startEpisode
    · exact .rests fun up => Works.entrySteps_eq_none (w.linked_station st up) ha ht

theorem entryAct : w.Deed st fun v => v.entryAct st id c := by
  by_cases hp : (w.station st).pair = []
  case neg => exact .rests fun up => Works.entryAct_of_occupied (w.linked_station st up) hp
  case pos =>
    cases hk : (w.station st).kerfRequest with
    | held => exact .rests fun up => Works.entryAct_of_held (w.linked_station st up) hk
    | due =>
      exact .takes (f := fun v => v.dueRequest st id c) (fun up => Works.entryAct_of_due (w.linked_station st up) hp hk)
        fun _ h => h.dueRequest
    | none => exact (entrySteps w st id c).of_eq fun up => Works.entryAct_of_steps (w.linked_station st up) hp hk

theorem mainAct : w.Deed st fun v => v.mainAct st id c := by
  by_cases h : (w.station st).activity = .cutting ∧ c.mainEnded = false
  case neg => exact .rests fun up => Works.mainAct_eq_none (w.linked_station st up) h
  case pos =>
    cases hl : c.lowestPending with
    | some e =>
      by_cases hr : (w.station st).wire = .threaded ∧ (w.station st).moveRoom = true
      · exact .issue (fun up => Works.mainAct_of_pending (w.linked_station st up) h hl hr) (by exact fun _ _ h => h.modContour)
          fun _ _ => .inl hr.1
      · exact .rests fun up => Works.mainAct_of_pending_no_room (w.linked_station st up) h hl hr
    | none =>
      cases ht : c.atTab with
      | true =>
        by_cases hp : (w.station st).pair = []
        · exact .issue (fun up => Works.mainAct_of_tab (w.linked_station st up) h hl ht hp) (by exact fun _ _ h => h.modContour) (by nofun)
        · exact .rests fun up => Works.mainAct_of_tab_occupied (w.linked_station st up) h hl ht hp
      | false =>
        cases hq : (w.station st).adm.queue with
        | nil => exact .rests fun up => Works.mainAct_of_no_frame (w.linked_station st up) h hl ht hq
        | cons q rest =>
          by_cases hr : q.contour = id ∧ q.ordinal = c.h + 1 ∧ (w.station st).wire = .threaded
              ∧ (w.station st).moveRoom = true
          · have hw := hr.2.2.1
            exact .issue (fun up => Works.mainAct_of_frame (w.linked_station st up) h hl ht hq hr)
              (by exact fun _ _ h => h.modContour.consumeHead) fun _ _ => .inl hw
          · exact .rests fun up => Works.mainAct_of_other_frame (w.linked_station st up) h hl ht hq hr

theorem approachAct (p : PassWork) : w.Deed st fun v => v.approachAct st id c p := by
  by_cases h : (w.station st).wire = .threaded ∧ (w.station st).moveRoom = true
  case neg => exact .rests fun up => Works.approachAct_eq_none (w.linked_station st up) h
  case pos =>
    cases hn : (c.traversePart p)[p.next]? with
    | some e =>
      exact .issue (fun up => Works.approachAct_of_traverse (w.linked_station st up) h hn) (by exact fun _ _ h => h.upd rfl rfl)
        fun _ _ => .inl h.1
    | none =>
      have past := List.getElem?_eq_none_iff.mp hn
      cases hq : c.nextTail p.approach with
      | some e =>
        exact .issue (fun up => Works.approachAct_of_tail (w.linked_station st up) h past hq)
          (by exact fun _ _ h => h.modContour.upd rfl rfl) fun _ _ => .inl h.1
      | none => exact .rests fun up => Works.approachAct_of_end (w.linked_station st up) h past hq

theorem passAct (p : PassWork) : w.Deed st fun v => v.passAct st id c p := by
  by_cases occupied : (p.step = .travel ∨ p.step = .threading) ∧ (w.station st).pair ≠ []
  case pos => exact .rests fun up => Works.passAct_of_occupied (w.linked_station st up) occupied.1 occupied.2
  case neg =>
    have empty (hs : p.step = .travel ∨ p.step = .threading) : (w.station st).pair = [] :=
      Classical.not_not.mp fun hp => occupied ⟨hs, hp⟩
    cases hs : p.step with
    | travel =>
      by_cases hw : (w.station st).wire = .unthreaded
      · exact .issue (fun up => Works.passAct_of_travel (w.linked_station st up) hs (empty (.inl hs)) hw) (by exact fun _ _ h => h)
          (by exact fun _ h => absurd h Bool.false_ne_true)
      · exact .issue (fun up => Works.passAct_of_wire (w.linked_station st up) hs (empty (.inl hs)) hw) (by exact fun _ _ h => h) (by nofun)
    | threading =>
      exact .takes (f := fun v => v.startEpisode st .startHole id c)
        (fun up => Works.passAct_of_threading (w.linked_station st up) hs (empty (.inr hs))) fun _ h => h.startEpisode
    | approach => exact (approachAct w st id c p).of_eq fun up => Works.passAct_of_approach hs
    | closing => exact .rests fun up => Works.passAct_of_closing hs

theorem closingAct : w.Deed st fun v => v.closingAct st := by
  by_cases h : ∃ k, (w.station st).closing = some k ∧ k.cutReceived = false ∧ (w.station st).pair = []
  · obtain ⟨k, hk, hc, hp⟩ := h
    exact .issue (fun up => Works.closingAct_of_uncut (w.linked_station st up) hk hc hp) (by exact fun _ _ h => h) (by nofun)
  · exact .rests fun up => Works.closingAct_eq_none (w.linked_station st up) fun k hk both => h ⟨k, hk, both⟩

theorem contourAct : w.Deed st fun v => v.contourAct st id c := by
  cases hf : c.prog.pendingFailure with
  | some cause => exact .rests fun up => Works.contourAct_of_failing (by rw [hf]; nofun)
  | none =>
    cases hr : (w.station st).recovery with
    | some r =>
      exact (recoveryAct w st id c r).of_eq fun up => Works.contourAct_of_recovery (w.linked_station st up) hf hr
    | none =>
      cases he : (w.station st).tc.episode with
      | some e => exact (threadAct w st e).of_eq fun up => Works.contourAct_of_episode (w.linked_station st up) hf hr he
      | none =>
        by_cases h1 : c.state = .entering
        · exact (entryAct w st id c).of_eq fun up => Works.contourAct_of_entering (w.linked_station st up) hf hr he h1
        by_cases h2 : c.state = .cutting
        · exact (mainAct w st id c).of_eq fun up => Works.contourAct_of_cutting (w.linked_station st up) hf hr he h2
        by_cases h3 : c.state = .tabCutting
        · have tab (up : Bool) := Works.contourAct_of_tabCutting (w.linked_station st up) (id := id) hf hr he h3
          cases ht : w.tailWork st id with
          | none =>
            exact .rests fun up => by
              rw [tab up, w.tailWork_linked, ht]
              rfl
          | some p =>
            exact (passAct w st id c p).of_eq fun up => by
              rw [tab up, w.tailWork_linked, ht]
              rfl
        by_cases h4 : c.state = .closing
        · exact (closingAct w st).of_eq fun up => Works.contourAct_of_closing (w.linked_station st up) hf hr he h4
        · exact .rests fun up => Works.contourAct_eq_none (w.linked_station st up) hf hr he h1 h2 h3 h4

/-! ## Between contours -/

theorem travelAct (e : QEntry) : w.Deed st fun v => v.travelAct st e := by
  have cut (hw : (w.station st).wire = .unknown ∨ (w.station st).wire = .broken) : w.Deed st fun v => v.travelAct st e := by
    by_cases hp : (w.station st).pair = []
    · exact .issue (fun up => Works.travelAct_of_cut (w.linked_station st up) hw hp) (by exact fun _ _ h => h.upd rfl rfl) (by nofun)
    · exact .rests fun up => Works.travelAct_of_occupied (w.linked_station st up) hw hp
  cases hw : (w.station st).wire with
  | unthreaded =>
    by_cases hr : (w.station st).moveRoom = true
    · exact .issue (fun up => Works.travelAct_of_room (w.linked_station st up) hw hr) (by exact fun _ _ h => h.takeDirective) (by nofun)
    · exact .rests fun up => Works.travelAct_of_no_room (w.linked_station st up) hw hr
  | unknown => exact cut (.inl hw)
  | broken => exact cut (.inr hw)
  | threaded => exact .rests fun up => Works.travelAct_of_threaded (w.linked_station st up) hw

theorem headAct (e : QEntry) : w.Deed st fun v => v.headAct st e := by
  by_cases ht : e.seg.kind = .travel
  · exact (travelAct w st e).of_eq fun up => Works.headAct_of_travel ht
  by_cases hd : e.seg.kind = .dwell
  · by_cases hp : (w.station st).pair = []
    · exact .issue (fun up => (Works.headAct_of_dwell (w.linked_station st up) hd).trans (if_pos hp))
        (by exact fun _ _ h => h.takeDirective) (by nofun)
    · exact .rests fun up => (Works.headAct_of_dwell (w.linked_station st up) hd).trans (if_neg hp)
  · refine .still fun up v hv => ?_
    have hv := (Works.headAct_of_start (w.linked_station st up) ht hd).symm.trans hv
    split at hv
    · exact (w.linked_still st up).headStarts hv
    · cases hv

theorem idleAct : w.Deed st fun v => v.idleAct st := by
  cases hd : (w.station st).failureCutDue with
  | true =>
    by_cases hp : (w.station st).pair = []
    case neg => exact .rests fun up => Works.idleAct_of_cut_due_occupied (w.linked_station st up) hd hp
    case pos =>
      by_cases hw : (w.station st).wire = .unthreaded
      · exact .takes (f := fun v => v.upd st fun x => { x with failureCutDue := false })
          (fun up => Works.idleAct_of_cut_done (w.linked_station st up) hd hp hw) fun _ h => h.upd rfl rfl
      · exact .issue (fun up => Works.idleAct_of_cut_due (w.linked_station st up) hd hp hw) (by exact fun _ _ h => h.upd rfl rfl) (by nofun)
  | false =>
    cases hr : (w.station st).pass with
    | some r =>
      refine .still fun up v hv => ?_
      have hv := (Works.idleAct_of_pass (w.linked_station st up) hd hr).symm.trans hv
      split at hv
      · split at hv
        · cases hv
          exact (w.linked_still st up).startPassContour
        · cases hv
          exact (w.linked_still st up).endPass
      · cases hv
    | none =>
      cases hs : (w.station st).endProgram with
      | some seq =>
        refine .still fun up v hv => ?_
        have hv := (Works.idleAct_of_end (w.linked_station st up) hd hr hs).symm.trans hv
        split at hv
        · cases hv
          exact (w.linked_still st up).finishProgram
        · cases hv
      | none =>
        cases hq : (w.station st).adm.queue with
        | nil => exact .rests fun up => Works.idleAct_of_empty (w.linked_station st up) hd hr hs hq
        | cons e rest =>
          exact (headAct w st e).of_eq fun up => Works.idleAct_of_head (w.linked_station st up) hd hr hs hq

/-! ## Every act -/

/-- The form a returned operation is issued in is of its own sort. -/
theorem again_isCutOrKerf (r : Returned) : r.again.isCutOrKerf = r.body.isCutOrKerf := by
  obtain ⟨body, progress⟩ := r
  cases body with
  | move mode => cases mode <;> rfl
  | _ => rfl

theorem reissue {r : Returned} {rest : List Returned} (h : (w.station st).returned = r :: rest) :
    w.Deed st fun v => v.reissue st r rest := by
  by_cases room : (w.station st).room r.again = true
  · refine .issue (fun up => Works.reissue_of_room (w.linked_station st up) rest room) (by exact fun _ _ h => h.upd rfl rfl)
      fun _ hb => .inr ⟨r, by rw [h]; exact List.mem_cons_self, ?_⟩
    rwa [← again_isCutOrKerf]
  · exact .rests fun up => Works.reissue_of_no_room (w.linked_station st up) rest room

theorem teardownAct : w.Deed st fun v => v.teardownAct st := by
  by_cases busy : (w.station st).pair ≠ [] ∨ (w.station st).stopAwaited = true
  case pos => exact .rests fun up => Works.teardownAct_eq_none (w.linked_station st up) busy
  case neg =>
    obtain ⟨hp, hs⟩ := not_or.mp busy
    have hp := Classical.not_not.mp hp
    have hs := Bool.not_eq_true _ ▸ hs
    have wire (hw : (w.station st).wire = .threaded ∨ (w.station st).wire = .broken) : w.Deed st fun v => v.teardownAct st :=
      .issue (fun up => Works.teardownAct_of_wire (w.linked_station st up) hp hs hw) (by exact fun _ _ h => h) (by nofun)
    have clear (hw : (w.station st).wire = .unknown ∨ (w.station st).wire = .unthreaded) :
        w.Deed st fun v => v.teardownAct st :=
      .takes (fun up => Works.teardownAct_of_clear (w.linked_station st up) hp hs hw) fun _ h => h.clearProgram
    cases hw : (w.station st).wire with
    | threaded => exact wire (.inl hw)
    | broken => exact wire (.inr hw)
    | unknown => exact clear (.inl hw)
    | unthreaded => exact clear (.inr hw)

theorem activeAct : w.Deed st fun v => v.activeAct st := by
  by_cases tail : ∃ id c e rest, w.current? st = some (id, c) ∧ (w.station st).adm.queue = e :: rest
      ∧ c.state = .tailIntake ∧ e.contour = id
  case pos =>
    obtain ⟨id, c, e, rest, hc, hq, hs, he⟩ := tail
    refine .still fun up v hv => ?_
    have intake := Works.intakeAct_of_tail (w := w.linked st up) (by rw [w.current?_linked, hc])
      (by rw [w.linked_station, hq]) hs he
    cases (Works.activeAct_of_intake intake).symm.trans hv
    exact (w.linked_still st up).intakeAct intake
  case neg =>
    have intake (up : Bool) : (w.linked st up).intakeAct st = none := Works.intakeAct_eq_none_of fun id c e rest hc hq both =>
      tail ⟨id, c, e, rest, (w.current?_linked st up).symm.trans hc, by rwa [w.linked_station] at hq, both⟩
    cases ha : (w.station st).stopAwaited with
    | true =>
      refine .still fun up v hv => ?_
      exact (w.linked_still st up).awaitingAct
        ((Works.activeAct_of_awaiting (w.linked_station st up) (intake up) ha).symm.trans hv)
    | false =>
      cases hr : (w.station st).returned with
      | cons r rest =>
        exact (reissue w st hr).of_eq fun up => Works.activeAct_of_returned (w.linked_station st up) (intake up) ha hr
      | nil =>
        cases hc : w.current? st with
        | some p =>
          exact (contourAct w st p.1 p.2).of_eq fun up =>
            Works.activeAct_of_contour (w.linked_station st up) (intake up) ha hr ((w.current?_linked st up).trans hc)
        | none =>
          exact (idleAct w st).of_eq fun up =>
            Works.activeAct_of_idle (w.linked_station st up) (intake up) ha hr ((w.current?_linked st up).trans hc)

theorem act : w.Deed st (Works.act st) := by
  cases hs : (w.station st).state with
  | idle => exact .rests fun up => Works.act_of_idle (by rw [w.linked_station]; exact hs)
  | active => exact (activeAct w st).of_eq fun up => Works.act_of_active (w.linked_station st up) hs
  | held =>
    exact .still fun up v hv =>
      (w.linked_still st up).intakeAct ((Works.act_of_held (w.linked_station st up) hs).symm.trans hv)
  | aborting => exact (teardownAct w st).of_eq fun up => Works.act_of_aborting (w.linked_station st up) hs

end Works.Deed

/-! ## What follows of every act -/

/-- The eighth law: what joins the pair of a station by its own act is no CUT or KERF move, unless its wire is THREADED or
such a move was returned by a stop. -/
theorem Works.act_wire_of_cutOrKerf {w w' : Works} {st : St} (h : w.act st = some w') {o : Op} (ho : o ∈ (w'.station st).pair)
    (hn : o ∉ (w.station st).pair) (hb : o.body.isCutOrKerf = true) :
    (w.station st).wire = .threaded ∨ ∃ r ∈ (w.station st).returned, r.body.isCutOrKerf = true := by
  have linked := Works.linked_self (w := w) (st := st) rfl
  cases Works.Deed.act w st with
  | still hs =>
    rw [← linked] at h
    exact absurd ((hs _ _ h).1 ▸ ho) hn
  | issues hi =>
    obtain ⟨body, pre, hact, ⟨hpair, -⟩, hbody⟩ := hi (w.station st).linkUp
    rw [linked] at hact hpair
    cases h.symm.trans hact
    cases up : (w.station st).linkUp with
    | true =>
      rw [Works.issue_of_up up, Works.station_upd_same, Station.push_pair, List.mem_append, hpair] at ho
      cases List.mem_singleton.mp (ho.resolve_left hn)
      exact hbody hb
    | false =>
      rw [Works.issue_of_down up, Works.Still.driveLoss_pair] at ho
      exact absurd ho List.not_mem_nil

/-- While a STOP is awaited nothing is issued (R60). -/
theorem Works.act_still_of_stopAwaited {w w' : Works} {st : St} (hs : (w.station st).stopAwaited = true)
    (h : w.act st = some w') : w.Still st w' := by
  have here := Works.Still.refl w st
  cases hstate : (w.station st).state with
  | idle => exact absurd ((Works.act_of_idle hstate).symm.trans h) nofun
  | held => exact here.intakeAct ((Works.act_of_held rfl hstate).symm.trans h)
  | aborting =>
    exact absurd (((Works.act_of_aborting rfl hstate).trans (Works.teardownAct_eq_none rfl (.inr hs))).symm.trans h) nofun
  | active =>
    have h := (Works.act_of_active rfl hstate).symm.trans h
    cases hi : w.intakeAct st with
    | some v =>
      cases (Works.activeAct_of_intake hi).symm.trans h
      exact here.intakeAct hi
    | none => exact here.awaitingAct ((Works.activeAct_of_awaiting rfl hi hs).symm.trans h)

/-- Where a station with its link UP would issue, one with its link DOWN has a drive loss (R63). -/
theorem Works.act_driveLoss_of_down {w w1 : Works} {st : St} (hd : (w.station st).linkUp = false)
    (h : (w.linked st true).act st = some w1) (hn : (w1.station st).nextIssue ≠ (w.station st).nextIssue) :
    w.act st = some (w.driveLoss st) := by
  have linked := Works.linked_self hd
  cases Works.Deed.act w st with
  | still hs => exact absurd (hs true w1 h).2 hn
  | issues hi =>
    obtain ⟨body, pre, hact, -, -⟩ := hi false
    rwa [linked, Works.issue_of_down hd] at hact

end Sys2Proof.Machine
end

section
/-! PROOFS. O53: the main pass issues in order (R67, R69, R85), and what a sequencer's acts are after an event. -/

namespace Sys2Proof.Machine

/-! ## One action after another -/

theorem Works.requestsDue_station_of_held {w : Works} {j : St} (h : (w.station j).kerfRequest = .held) :
    w.requestsDue.station j = { w.station j with kerfRequest := .due } := by
  rw [Works.station_requestsDue, Station.requestDue, if_pos h]

theorem Works.requestsDue_station_of_ne {w : Works} {j : St} (h : (w.station j).kerfRequest ≠ .held) :
    w.requestsDue.station j = w.station j := by
  rw [Works.station_requestsDue, Station.requestDue_of_ne h]

/-- With the event's station at rest, the first station after it in rotation that has an action takes it. -/
theorem Works.nextAct_of_rotation {w w' : Works} {st j : St} {before after : List St}
    (ho : [st + 1, st + 2, st + 3] = before ++ j :: after) (hs : w.act st = none) (hb : ∀ b ∈ before, w.act b = none)
    (hj : w.act j = some w') : w.nextAct st = some w' := by
  have order : rotation st = before ++ j :: (after ++ [st]) :=
    calc rotation st = [st + 1, st + 2, st + 3] ++ [st] := rotation_eq st
      _ = before ++ j :: (after ++ [st]) := by rw [ho, List.append_assoc, List.cons_append]
  have skip : before.findSome? (fun j => w.act j) = none := List.findSome?_eq_none_iff.mpr hb
  rw [Works.nextAct, List.findSome?_cons_of_isNone (by rw [hs]; rfl), order, List.findSome?_append, skip, Option.none_or,
    List.findSome?_cons, hj]

/-! ## A kerf record in ordinal order (R85) -/

/-- A new entry stands between those that were there. -/
theorem kerfInsert_between (e : KerfEntry) (l : List KerfEntry) :
    ∃ before after, kerfInsert e l = before ++ e :: after ∧ l = before ++ after := by
  induction l with
  | nil => exact ⟨[], [], rfl, rfl⟩
  | cons o l ih =>
    unfold kerfInsert
    split
    · exact ⟨[], o :: l, rfl, rfl⟩
    · obtain ⟨before, after, hi, hl⟩ := ih
      exact ⟨o :: before, after, congrArg (o :: ·) hi, congrArg (o :: ·) hl⟩

/-- In ordinal order the first PENDING entry is the lowest. -/
theorem Contour.lowestPending_lowest {c : Contour} (h : c.kerfLaw) {e : KerfEntry} (he : c.lowestPending = some e) :
    e ∈ c.kerf ∧ e.state = .pending ∧ ∀ o ∈ c.kerf, o.state = .pending → e.ordinal ≤ o.ordinal := by
  obtain ⟨pending, before, after, hk, hb⟩ := List.find?_eq_some_iff_append.mp he
  refine ⟨by rw [hk]; exact List.mem_append_right _ List.mem_cons_self, eq_of_beq pending, fun o ho hs => ?_⟩
  unfold Contour.kerfLaw at h
  rw [hk] at h ho
  obtain before_mem | rfl | after_mem := (List.mem_append.mp ho).imp_right List.mem_cons.mp
  · exact absurd (hb o before_mem) (by rw [hs]; decide)
  · exact Nat.le_refl _
  · exact List.rel_of_pairwise_cons (List.pairwise_append.mp h).2.1 after_mem

/-! ## The main pass (R67, R69) -/

namespace Works.AtWork

variable {w : Works} {st : St} {id : Nat} {c : Contour} (h : w.AtWork st id c)
  (hr : (w.station st).recovery = none) (he : (w.station st).tc.episode = none) (hs : c.state = .cutting)

include h hr he hs

theorem act_of_main : w.act st = w.mainAct st id c :=
  h.act_eq.trans (Works.contourAct_of_cutting rfl h.free hr he hs)

end Works.AtWork

/-- Settles O53: `Works.run` takes the next action until there is none; the first PENDING entry of an ordered record is the
lowest; the eighth law is `Works.act_wire_of_cutOrKerf`; and the main pass is `Works.mainAct`, branch by branch. -/
theorem mainPassIssuesInOrder : Obligations.MainPassIssuesInOrder := by
  unfold Obligations.MainPassIssuesInOrder
  refine ⟨fun w st => ⟨rfl, rfl, fun j => Works.requestsDue_station_of_ne, fun j => Works.requestsDue_station_of_held,
      fun h => Works.run_of_none (Works.nextAct_eq_none.mpr h), fun w' h => Works.run_of_some (Works.nextAct_of_act h),
      fun before j after w' ho hs hb hj => Works.run_of_some (Works.nextAct_of_rotation ho hs hb hj),
      Works.settle_ends w st⟩,
    fun c h => ⟨c.lowestPending_eq_none_iff, fun e => c.lowestPending_lowest h, fun e =>
      ⟨c.kerfLaw_record h e, kerfInsert_perm e c.kerf, kerfInsert_between e c.kerf⟩⟩,
    fun w w' st h returned o ho hn hb => ?law, ?main⟩
  case law =>
    obtain threaded | ⟨r, hr, hc⟩ := Works.act_wire_of_cutOrKerf h ho hn hb
    · exact threaded
    · exact absurd hc (by rw [returned r hr]; nofun)
  case main =>
    intro w st id c x issued room hs ha hret hi hc hf hr he hcut hact hend hl
    have work : w.AtWork st id c := ⟨hs, ha, hret, hi, hc, hf, by rw [hcut]; nofun⟩
    have pass : x.activity = .cutting ∧ c.mainEnded = false := ⟨hact, hend⟩
    have act : w.act st = w.mainAct st id c := work.act_of_main hr he hcut
    have move : x.moveRoom = true ↔ room := x.moveRoom_iff
    refine ⟨fun e hp => ⟨fun wire hm => ?_, fun shut => ?_⟩, fun hp ht => ⟨fun empty => ?_, fun occupied => ?_⟩,
      fun hp ht => ⟨fun none => ?_, fun q rest hq => ⟨fun hqc hqo wire hm => ?_, fun shut => ?_⟩⟩⟩
    · rw [act, Works.mainAct_of_pending rfl pass hp ⟨wire, move.mpr hm⟩, Works.issue_of_up hl]
      rfl
    · rw [act]
      refine Works.mainAct_of_pending_no_room rfl pass hp fun ⟨wire, hm⟩ => ?_
      exact shut.elim (fun nowire => nowire wire) fun noroom => noroom (move.mp hm)
    · rw [act, Works.mainAct_of_tab rfl pass hp (c.atTab_iff.mpr ht) empty, Works.issue_of_up hl]
      rfl
    · rw [act, Works.mainAct_of_tab_occupied rfl pass hp (c.atTab_iff.mpr ht) occupied]
    · rw [act, Works.mainAct_of_no_frame rfl pass hp (c.atTab_eq_false_iff.mpr ht) none]
    · rw [act, Works.mainAct_of_frame rfl pass hp (c.atTab_eq_false_iff.mpr ht) hq ⟨hqc, hqo, wire, move.mpr hm⟩,
        Works.issue_of_up hl]
      rfl
    · rw [act]
      refine Works.mainAct_of_other_frame rfl pass hp (c.atTab_eq_false_iff.mpr ht) hq fun ⟨hqc, hqo, wire, hm⟩ => ?_
      obtain other | ordinal | nowire | noroom := shut
      · exact other hqc
      · exact ordinal hqo
      · exact nowire wire
      · exact noroom (move.mp hm)

end Sys2Proof.Machine
end

section
/-! PROOFS. What an ACTIVE station takes up while a STOP is awaited (R60, R64, R66, R97), case by case, and O54: the head of
the queue, the entry and tail intake. -/

namespace Sys2Proof.Machine

section

variable {w : Works} {st : St} {x : Station} (hx : w.station st = x) {id : Nat} {c : Contour}

include hx

/-! ## Awaiting the answer to a STOP -/

theorem Works.awaitingAct_of_occupied (h : x.pair ≠ []) : w.awaitingAct st = none := by
  simp only [Works.awaitingAct, hx, if_neg (not_and_of_not_left _ h)]

section

variable (hp : x.pair = []) (hr : x.returned = [])

include hp hr

theorem Works.awaitingAct_of_contour (hc : w.current? st = some (id, c)) :
    w.awaitingAct st = w.awaitingContourAct st id c := by
  simp only [Works.awaitingAct, hx, if_pos (And.intro hp hr), hc]

variable (hc : w.current? st = none) (hd : x.failureCutDue = false) (ht : x.pass = none)

include hc hd ht

theorem Works.awaitingAct_of_end {seq : Seq} (hs : x.endProgram = some seq) :
    w.awaitingAct st = some (w.finishProgram st seq) := by
  simp only [Works.awaitingAct, hx, if_pos (And.intro hp hr), hc, hd, ht, hs, Option.isSome_none, Bool.false_eq_true,
    or_self, if_false]

theorem Works.awaitingAct_of_head {e : QEntry} {rest : List QEntry} (hs : x.endProgram = none)
    (hq : x.adm.queue = e :: rest) : w.awaitingAct st = w.headStarts st e := by
  simp only [Works.awaitingAct, hx, if_pos (And.intro hp hr), hc, hd, ht, hs, hq, Option.isSome_none, Bool.false_eq_true,
    or_self, if_false]

end

section

variable (hf : c.prog.pendingFailure = none) (he : x.tc.episode = none)

include hf he

theorem Works.awaitingContourAct_of_startHole {r : Recovery} (hr : x.recovery = some r) (hs : r.step = .startHole) :
    w.awaitingContourAct st id c = some (w.startEpisode st .startHole id c) := by
  simp only [Works.awaitingContourAct, hx, if_pos (And.intro hf he), hr, if_pos hs]

theorem Works.awaitingContourAct_of_recovery {r : Recovery} (hr : x.recovery = some r) (hs : r.step ≠ .startHole) :
    w.awaitingContourAct st id c = none := by
  simp only [Works.awaitingContourAct, hx, if_pos (And.intro hf he), hr, if_neg hs]

variable (hr : x.recovery = none) (hs : c.state = .entering)

include hr hs

theorem Works.awaitingContourAct_of_held (hk : x.kerfRequest = .held) : w.awaitingContourAct st id c = none := by
  simp only [Works.awaitingContourAct, hx, if_pos (And.intro hf he), hr, if_pos hs, hk]

theorem Works.awaitingContourAct_of_due (hk : x.kerfRequest = .due) :
    w.awaitingContourAct st id c = some (w.dueRequest st id c) := by
  simp only [Works.awaitingContourAct, hx, if_pos (And.intro hf he), hr, if_pos hs, hk]

theorem Works.awaitingContourAct_of_threading (hk : x.kerfRequest = .none) (ha : x.activity = .threading) :
    w.awaitingContourAct st id c = some (w.startEpisode st .startHole id c) := by
  simp only [Works.awaitingContourAct, hx, if_pos (And.intro hf he), hr, if_pos hs, hk, if_pos ha]

theorem Works.awaitingContourAct_of_steps (hk : x.kerfRequest = .none) (ha : x.activity ≠ .threading) :
    w.awaitingContourAct st id c = none := by
  simp only [Works.awaitingContourAct, hx, if_pos (And.intro hf he), hr, if_pos hs, hk, if_neg ha]

end

/-! ## Stopped or not -/

/-- The current contour while a STOP is awaited. -/
theorem Works.act_of_awaiting_contour (hs : x.state = .active) (ha : x.stopAwaited = true) (hi : x.current = some id)
    (hc : w.contour? id = some c) (ht : c.state ≠ .tailIntake) : w.act st = w.awaitingAct st := by
  have current : w.current? st = some (id, c) := Works.current?_of_record (by rw [hx, hi]) hc
  have intake : w.intakeAct st = none := Works.intakeAct_eq_none fun j d hj => by
    cases current.symm.trans hj
    exact ht
  rw [Works.act_of_active hx hs, Works.activeAct_of_awaiting hx intake ha]

/-- No current contour while a STOP is awaited. -/
theorem Works.act_of_awaiting_no_contour (hs : x.state = .active) (ha : x.stopAwaited = true) (hi : x.current = none) :
    w.act st = w.awaitingAct st := by
  have current : w.current? st = none := by rw [Works.current?, hx, hi]
  have intake : w.intakeAct st = none := Works.intakeAct_eq_none fun j d hj => absurd (current.symm.trans hj) nofun
  rw [Works.act_of_active hx hs, Works.activeAct_of_awaiting hx intake ha]

end

/-- An ACTIVE station with no current contour that has come to the head of its queue. -/
structure Works.AtHead (w : Works) (st : St) (e : QEntry) (rest : List QEntry) : Prop where
  state : (w.station st).state = .active
  returned : (w.station st).returned = []
  current : (w.station st).current = none
  cutDue : (w.station st).failureCutDue = false
  pass : (w.station st).pass = none
  endProgram : (w.station st).endProgram = none
  queue : (w.station st).adm.queue = e :: rest

namespace Works.AtHead

variable {w : Works} {st : St} {e : QEntry} {rest : List QEntry} (h : w.AtHead st e rest)

include h

theorem act_eq (ha : (w.station st).stopAwaited = false) : w.act st = w.headAct st e :=
  (Works.act_of_no_contour rfl h.state ha h.returned h.current).trans
    (Works.idleAct_of_head rfl h.cutDue h.pass h.endProgram h.queue)

/-- While a STOP is awaited only a head that issues nothing starts. -/
theorem act_of_awaiting (ha : (w.station st).stopAwaited = true) :
    w.act st = if (w.station st).pair = [] then w.headStarts st e else none := by
  have current : w.current? st = none := by rw [Works.current?, h.current]
  rw [Works.act_of_awaiting_no_contour rfl h.state ha h.current]
  split
  case isTrue hp => exact Works.awaitingAct_of_head rfl hp h.returned current h.cutDue h.pass h.endProgram h.queue
  case isFalse hp => exact Works.awaitingAct_of_occupied rfl hp

/-- A head that issues nothing starts with the pair empty, stopped or not. -/
theorem act_of_start (ht : e.seg.kind ≠ .travel) (hd : e.seg.kind ≠ .dwell) :
    w.act st = if (w.station st).pair = [] then w.headStarts st e else none := by
  cases ha : (w.station st).stopAwaited with
  | true => exact h.act_of_awaiting ha
  | false => exact (h.act_eq ha).trans (Works.headAct_of_start rfl ht hd)

end Works.AtHead

/-! ## The heads that issue nothing (R64, R65, R76, R77) -/

theorem Works.headStarts_of_cut {w : Works} {st : St} {e : QEntry} {c : Contour}
    (hk : e.seg.kind = .cutLine ∨ e.seg.kind = .arcCw ∨ e.seg.kind = .arcCcw) (hf : e.first = true)
    (hc : w.contour? e.contour = some c) :
    w.headStarts st e =
      some (if w.passForced st c = true then w.startPass st .forced else w.checkPassed st e.contour c) := by
  have entry : w.beginEntry st e.contour =
      some (if w.passForced st c = true then w.startPass st .forced else w.checkPassed st e.contour c) := by
    rw [Works.beginEntry, hc, Option.map_some]
  obtain line | cw | ccw := hk
  · simp only [Works.headStarts, line, hf, if_true, entry]
  · simp only [Works.headStarts, cw, hf, if_true, entry]
  · simp only [Works.headStarts, ccw, hf, if_true, entry]

theorem Works.headStarts_of_tabs {w : Works} {st : St} {e : QEntry} (hk : e.seg.kind = .tabs) :
    w.headStarts st e = some (w.tabsAct st e) := by
  simp only [Works.headStarts, hk]

theorem Works.headStarts_of_endProgram {w : Works} {st : St} {e : QEntry} (hk : e.seg.kind = .endProgram) :
    w.headStarts st e = some (w.endProgramAct st e) := by
  simp only [Works.headStarts, hk]

theorem Works.headStarts_of_issue {w : Works} {st : St} {e : QEntry} (hk : e.seg.kind = .travel ∨ e.seg.kind = .dwell) :
    w.headStarts st e = none := by
  obtain travel | dwell := hk
  · simp only [Works.headStarts, travel]
  · simp only [Works.headStarts, dwell]

/-- The forced-tab-pass check (R65). -/
theorem Works.passForced_iff (w : Works) (st : St) (c : Contour) :
    w.passForced st c = true ↔ (c.plan.tabOrdinal? ≠ none ∧ 32 ≤ (w.station st).deferred.length)
      ∨ (w.pool.free < c.cfg.segments ∧ (w.station st).deferred ≠ []) := by
  simp only [Works.passForced, Bool.or_eq_true, Bool.and_eq_true, Option.isSome_iff_ne_none, decide_eq_true_eq,
    Bool.not_eq_true', List.isEmpty_eq_false_iff]

/-! ## The list of steps of `Works.consumeHead` and of a directive's end -/

theorem Works.consumeHead_of_queue {w : Works} {st : St} {e : QEntry} {rest : List QEntry}
    (h : (w.station st).adm.queue = e :: rest) :
    w.consumeHead st =
      (w.upd st fun x =>
        { x with
          adm := { x.adm with
            queue := rest, program := x.adm.program.map fun p => { p with consumed := e.seq } } }).progressUpdate st := by
  simp only [Works.consumeHead, h]
  rfl

end Sys2Proof.Machine
end

section
/-! PROOFS. O54: directives and tails leave the queue (R64 to R66, R70, R75 to R78). -/

namespace Sys2Proof.Machine

/-! ## Directives (R76, R77) -/

/-- A head of the queue that leaves it leaves the deferred list as it is. -/
theorem Works.consumeHead_deferred {w : Works} {st : St} {e : QEntry} {rest : List QEntry}
    (h : (w.station st).adm.queue = e :: rest) :
    ((w.consumeHead st).station st).deferred = (w.station st).deferred := by
  obtain ⟨rs, lost, hs⟩ := Works.consumeHead_station h
  rw [hs]

theorem Works.markReport?_deferred (w : Works) (st : St) (m : Option MarkRef) (o : MarkOutcome) :
    ((w.markReport? st m o).station st).deferred = (w.station st).deferred := by
  cases m with
  | none => rfl
  | some m =>
    obtain ⟨rs, lost, hs⟩ := Works.markReport_station w st m o
    rw [Works.markReport?_some, hs]

theorem Works.tabsAct_eq {w : Works} {st : St} {e : QEntry} {rest : List QEntry} (h : (w.station st).adm.queue = e :: rest) :
    w.tabsAct st e =
      ((w.consumeHead st).markReport? st e.mark .done).upd st fun x =>
        if x.deferred = [] then { x with activity := .waiting }
        else { x with activity := .tabPass, pass := some { trigger := .tabs, work := none } } := by
  have deferred : (((w.consumeHead st).markReport? st e.mark .done).station st).deferred = (w.station st).deferred := by
    rw [Works.markReport?_deferred, Works.consumeHead_deferred h]
  unfold Works.tabsAct
  split
  case isTrue none => exact Works.upd_congr _ _ (by rw [deferred, if_pos none])
  case isFalse some => exact Works.upd_congr _ _ (by rw [deferred, if_neg some])

theorem Works.endProgramAct_eq {w : Works} {st : St} {e : QEntry} {rest : List QEntry}
    (h : (w.station st).adm.queue = e :: rest) :
    w.endProgramAct st e =
      (w.takeDirective st e .waiting).upd st fun x =>
        if x.deferred = [] then { x with endProgram := some e.seq }
        else { x with
          endProgram := some e.seq, activity := .tabPass, pass := some { trigger := .endProgram, work := none } } := by
  have deferred : ((w.takeDirective st e .waiting).station st).deferred = (w.station st).deferred := by
    rw [Works.takeDirective, Works.station_upd_same]
    exact Works.consumeHead_deferred h
  unfold Works.endProgramAct
  split
  case isTrue none => exact Works.upd_congr _ _ (by rw [deferred, if_pos none])
  case isFalse some =>
    rw [Works.startPass, Works.upd_upd]
    exact Works.upd_congr _ _ (by rw [deferred, if_neg some])

/-- The end of END_PROGRAM, whose program is there to be named (R77). -/
theorem Works.finishProgram_of_program {w : Works} {st : St} {seq : Seq} {p : Program}
    (h : (w.station st).adm.program = some p) :
    w.finishProgram st seq =
      (((w.markReports st (w.station st).directiveMarks .done).upd st fun x => { x with directiveMarks := [] }).report st
        (.programEnd p.tag seq (w.station st).completed (w.station st).failed)).upd st Station.toIdle := by
  simp only [Works.finishProgram, h]

/-! ## The entry's request (R65, R86, R89) -/

/-- A request that the free slots do not hold waits, the list and the table as they were. -/
theorem Works.dueRequest_waits {w : Works} {st : St} {id : Nat} {c : Contour} (h : w.pool.free < c.cfg.segments) :
    (w.dueRequest st id c).pool.waiting.get st = some { contour := id, need := c.cfg.segments }
      ∧ (w.dueRequest st id c).pool.free = w.pool.free ∧ (w.dueRequest st id c).contours = w.contours
      ∧ ((w.dueRequest st id c).station st).deferred = (w.station st).deferred
      ∧ ((w.dueRequest st id c).station st).activity = .waitKerf
      ∧ ((w.dueRequest st id c).station st).current = (w.station st).current := by
  have full : ¬c.cfg.segments ≤ w.pool.free := Nat.not_le.mpr h
  let asked := (({ w.upd st fun x => { x with kerfRequest := .none } with
    pool := { w.pool with waiting := w.pool.waiting.set st (some { contour := id, need := c.cfg.segments }) } } : Works).upd
      st fun x => { x with activity := .waitKerf })
  have eq : w.dueRequest st id c = (asked.report st (.kerfWait id c.cfg.segments)).raise flagKerfWait := if_neg full
  obtain ⟨rs, lost, hs⟩ := Works.report_station asked st (.kerfWait id c.cfg.segments)
  have here : asked.station st = { w.station st with kerfRequest := .none, activity := .waitKerf } := by
    rw [Works.station_upd_same]
    exact congrArg (fun x : Station => { x with activity := .waitKerf }) (Works.station_upd_same w st _)
  rw [eq, Works.raise_pool, Works.raise_contours, Works.raise_station, Works.report_pool, Works.report_contours, hs, here]
  exact ⟨PerStation.get_modify_same _ _ _, rfl, rfl, rfl, rfl, rfl⟩

/-! ## The steps of `Works.act` at an entry, stopped or not -/

/-- The current contour of an ACTIVE station with nothing returned, no failure pending and no episode. -/
structure Works.AtEntry (w : Works) (st : St) (id : Nat) (c : Contour) : Prop where
  state : (w.station st).state = .active
  returned : (w.station st).returned = []
  current : (w.station st).current = some id
  contour : w.contour? id = some c
  free : c.prog.pendingFailure = none
  episode : (w.station st).tc.episode = none
  tail : c.state ≠ .tailIntake

namespace Works.AtEntry

variable {w : Works} {st : St} {id : Nat} {c : Contour} (h : w.AtEntry st id c)

include h

theorem act_of_awaiting (ha : (w.station st).stopAwaited = true) :
    w.act st = if (w.station st).pair = [] then w.awaitingContourAct st id c else none := by
  rw [Works.act_of_awaiting_contour rfl h.state ha h.current h.contour h.tail]
  split
  case isTrue hp => exact Works.awaitingAct_of_contour rfl hp h.returned (Works.current?_of_record h.current h.contour)
  case isFalse hp => exact Works.awaitingAct_of_occupied rfl hp

theorem atWork (ha : (w.station st).stopAwaited = false) : w.AtWork st id c :=
  ⟨h.state, ha, h.returned, h.current, h.contour, h.free, h.tail⟩

section

variable (hr : (w.station st).recovery = none) (hs : c.state = .entering)

include hr hs

theorem act_of_entering (ha : (w.station st).stopAwaited = false) : w.act st = w.entryAct st id c :=
  (h.atWork ha).act_eq.trans (Works.contourAct_of_entering rfl h.free hr h.episode hs)

/-- A request held since the check, or an operation outstanding, leaves the entry nothing to do. -/
theorem act_of_held (hk : (w.station st).kerfRequest = .held ∨ (w.station st).pair ≠ []) : w.act st = none := by
  cases ha : (w.station st).stopAwaited with
  | false =>
    rw [h.act_of_entering hr hs ha]
    exact hk.elim (Works.entryAct_of_held rfl) (Works.entryAct_of_occupied rfl)
  | true =>
    rw [h.act_of_awaiting ha]
    split
    case isTrue hp =>
      exact hk.elim (Works.awaitingContourAct_of_held rfl h.free h.episode hr hs) fun occupied => absurd hp occupied
    case isFalse => rfl

theorem act_of_due (hk : (w.station st).kerfRequest = .due) (hp : (w.station st).pair = []) :
    w.act st = some (w.dueRequest st id c) := by
  cases ha : (w.station st).stopAwaited with
  | false => rw [h.act_of_entering hr hs ha, Works.entryAct_of_due rfl hp hk]
  | true =>
    rw [h.act_of_awaiting ha, if_pos hp, Works.awaitingContourAct_of_due rfl h.free h.episode hr hs hk]

theorem act_of_threading (hk : (w.station st).kerfRequest = .none) (ht : (w.station st).activity = .threading)
    (hp : (w.station st).pair = []) : w.act st = some (w.startEpisode st .startHole id c) := by
  cases ha : (w.station st).stopAwaited with
  | false => rw [h.act_of_entering hr hs ha, Works.entryAct_of_steps rfl hp hk, Works.entrySteps_of_threading rfl ht]
  | true =>
    rw [h.act_of_awaiting ha, if_pos hp, Works.awaitingContourAct_of_threading rfl h.free h.episode hr hs hk ht]

theorem act_of_awaiting_steps (hk : (w.station st).kerfRequest = .none) (ha : (w.station st).stopAwaited = true)
    (ht : (w.station st).activity ≠ .threading) : w.act st = none := by
  rw [h.act_of_awaiting ha, Works.awaitingContourAct_of_steps rfl h.free h.episode hr hs hk ht, ite_self]

end

end Works.AtEntry

/-! ## Tail intake (R70) -/

/-- Tail intake is the same action ACTIVE and HELD. -/
theorem Works.act_of_intake {w v : Works} {st : St} (hs : (w.station st).state = .active ∨ (w.station st).state = .held)
    (h : w.intakeAct st = some v) : w.act st = some v := by
  obtain active | held := hs
  · rw [Works.act_of_active rfl active, Works.activeAct_of_intake h]
  · rw [Works.act_of_held rfl held, h]

/-- The last tail frame leaves the contour DEFERRED at the end of the list, and the station without a contour. -/
theorem Works.defer_station (w : Works) (st : St) (id : Nat) :
    (w.defer st id).contour? id = (w.contour? id).map (fun c => { c with state := .deferred })
      ∧ ((w.defer st id).station st).deferred = (w.station st).deferred ++ [id]
      ∧ ((w.defer st id).station st).current = none ∧ ((w.defer st id).station st).pair = (w.station st).pair
      ∧ ((w.station st).pass = none → ((w.defer st id).station st).activity = .waiting) := by
  have here : (w.defer st id).station st =
      { (w.station st).leaveContour with deferred := (w.station st).deferred ++ [id] } := Works.station_upd_same _ _ _
  rw [here]
  refine ⟨Works.contour?_modContour_same _ _ _, rfl, rfl, rfl, fun none => ?_⟩
  simp only [Station.leaveContour, Station.afterContour, none, Option.isSome_none, Bool.false_eq_true, if_false]

/-- Settles O54: each clause is the branch of `Works.act` it describes, whether a STOP is awaited or not. -/
theorem directivesAndTailsLeaveTheQueue : Obligations.DirectivesAndTailsLeaveTheQueue := by
  unfold Obligations.DirectivesAndTailsLeaveTheQueue
  intro w st x issued
  refine ⟨fun e rest => Works.consumeHead_of_queue, fun w' => Works.act_still_of_stopAwaited, ?entry, ?contour, ?directive,
    ?programEnd, ?tail⟩
  case entry =>
    intro e rest c hs hr hi hd hp he hq first hc hk forced entered
    have head : w.AtHead st e rest := ⟨hs, hr, hi, hd, hp, he, hq⟩
    have act := head.act_of_start (by obtain h | h | h := hk <;> rw [h] <;> nofun)
      (by obtain h | h | h := hk <;> rw [h] <;> nofun)
    have check : w.passForced st c = true ↔ forced := w.passForced_iff st c
    refine ⟨fun occupied => act.trans (if_neg occupied), fun empty yes => ?_, fun empty no => ?_⟩
    · rw [act, if_pos empty, Works.headStarts_of_cut hk first hc, if_pos (check.mpr yes)]
      rfl
    · rw [act, if_pos empty, Works.headStarts_of_cut hk first hc, if_neg (fun yes => no (check.mp yes))]
      rfl
  case contour =>
    intro id c hs hr hi hc hf he ht
    have entry : w.AtEntry st id c := ⟨hs, hr, hi, hc, hf, he, ht⟩
    refine ⟨fun entering hrec hk => ⟨entry.act_of_held hrec entering, entry.act_of_due hrec entering, fun due empty full => ?_⟩,
      fun entering hrec hk => ⟨fun threading empty => entry.act_of_threading hrec entering hk threading empty,
        fun ha hne => entry.act_of_awaiting_steps hrec entering hk ha hne, fun ha hl => ?_⟩, fun r ha empty hrec => ?_⟩
    · obtain ⟨waiting, free, contours, deferred, activity, current⟩ := Works.dueRequest_waits (st := st) (id := id) full
      exact ⟨_, entry.act_of_due hrec entering due empty, waiting, free, contours, deferred, activity, current.trans hi⟩
    · have act : w.act st = w.entryAct st id c := entry.act_of_entering hrec entering ha
      refine ⟨fun hact empty wire => ?_, fun e rest hact empty wire hq => ?_, fun rests => ?_⟩
      · rw [act, Works.entryAct_of_steps rfl empty hk, Works.entrySteps_of_wire rfl hact wire, Works.issue_of_up hl]
        rfl
      · rw [act, Works.entryAct_of_steps rfl empty hk, Works.entrySteps_of_travel rfl hact wire hq, Works.issue_of_up hl]
        rfl
      · by_cases empty : x.pair = []
        · have waits : x.activity = .waitKerf := rests.resolve_right (not_not_intro empty)
          rw [act, Works.entryAct_of_steps rfl empty hk]
          exact Works.entrySteps_eq_none (x := x) rfl (by rw [waits]; nofun) (by rw [waits]; nofun)
        · rw [act, Works.entryAct_of_occupied rfl empty]
    · have act := (entry.act_of_awaiting ha).trans (if_pos empty)
      exact ⟨fun hole => act.trans (Works.awaitingContourAct_of_startHole rfl hf he hrec hole),
        fun other => act.trans (Works.awaitingContourAct_of_recovery rfl hf he hrec other)⟩
  case directive =>
    intro e rest hs hr hi hd hp he hq start
    have head : w.AtHead st e rest := ⟨hs, hr, hi, hd, hp, he, hq⟩
    refine ⟨fun hk ha hl wire short moves => ?_, fun hk ha hl wire empty => ?_, fun hk ha hl empty => ?_, fun hk ha => ?_,
      fun hk occupied => ?_, fun hk empty => ?_, fun hk empty => ?_⟩
    · rw [head.act_eq ha, Works.headAct_of_travel hk,
        Works.travelAct_of_room rfl wire ((x.moveRoom_iff).mpr ⟨short, moves⟩), Works.issue_of_up hl]
      rfl
    · rw [head.act_eq ha, Works.headAct_of_travel hk, Works.travelAct_of_cut rfl wire empty, Works.issue_of_up hl]
      rfl
    · rw [head.act_eq ha, Works.headAct_of_dwell rfl hk, if_pos empty, Works.issue_of_up hl]
      rfl
    · rw [head.act_of_awaiting ha, Works.headStarts_of_issue hk, ite_self]
    · obtain dwell | tabs | endProgram := hk
      · cases ha : x.stopAwaited with
        | true => exact (head.act_of_awaiting ha).trans (if_neg occupied)
        | false => exact (head.act_eq ha).trans ((Works.headAct_of_dwell rfl dwell).trans (if_neg occupied))
      · exact (head.act_of_start (by rw [tabs]; nofun) (by rw [tabs]; nofun)).trans (if_neg occupied)
      · exact (head.act_of_start (by rw [endProgram]; nofun) (by rw [endProgram]; nofun)).trans (if_neg occupied)
    · rw [head.act_of_start (by rw [hk]; nofun) (by rw [hk]; nofun), if_pos empty, Works.headStarts_of_tabs hk,
        Works.tabsAct_eq hq]
    · rw [head.act_of_start (by rw [hk]; nofun) (by rw [hk]; nofun), if_pos empty, Works.headStarts_of_endProgram hk,
        Works.endProgramAct_eq hq]
      rfl
  case programEnd =>
    intro seq p hs hr hi hd hp he empty program marked
    refine ⟨fun unmarked => ?_, ?_⟩
    · have same : w.markReports st x.directiveMarks .done = w := by rw [unmarked]; rfl
      unfold marked
      rw [same]
      exact Works.upd_self _ _ (by rw [← unmarked])
    · have act : w.act st = some (w.finishProgram st seq) := by
        cases ha : x.stopAwaited with
        | false =>
          exact (Works.act_of_no_contour rfl hs ha hr hi).trans
            ((Works.idleAct_of_end rfl hd hp he).trans (if_pos empty))
        | true =>
          exact (Works.act_of_awaiting_no_contour rfl hs ha hi).trans
            (Works.awaitingAct_of_end rfl empty hr (by rw [Works.current?, hi]) hd hp he)
      rw [act, Works.finishProgram_of_program program]
      rfl
  case tail =>
    intro e rest id c hs hi hc ht hq he w1
    have act := Works.act_of_intake hs (Works.intakeAct_of_tail (Works.current?_of_record hi hc) hq ht he)
    refine ⟨fun other => act.trans (congrArg some (if_neg other)), fun last => ?_⟩
    obtain ⟨contour, deferred, current, pair, waiting⟩ := Works.defer_station w1 st id
    obtain ⟨rs, lost, hw1⟩ :=
      Works.consumeHead_station (w := w.modContour id fun c => c.record (e.toKerf .tail none)) (st := st) hq
    have here : w1.station st = _ := hw1
    refine ⟨w1.defer st id, act.trans (congrArg some (if_pos last)), contour, ?_, current, ?_, fun none => waiting ?_⟩
    · rw [deferred, here]
      rfl
    · rw [pair, here]
      rfl
    · rw [here]
      exact none

end Sys2Proof.Machine
end

section
/-! PROOFS. O56: a teardown clears the program (R158 to R160). -/

namespace Sys2Proof.Machine

/-! ## What a release leaves of another contour (R88, R90) -/

/-- Only a contour in ENTERING can be granted slots that another's release frees. -/
theorem Works.release_contour?_kept {w : Works} {id j : Nat} {d : Contour} (hj : j ≠ id) (hd : w.contour? j = some d)
    (hs : d.state ≠ .entering) : (w.release id).contour? j = some d := by
  cases h : w.contour? id with
  | none => simpa only [Works.release, h] using hd
  | some c =>
    by_cases hr : c.prog.reservation = 0
    · rw [Works.release_of_none h hr, hd]
    · rw [Works.release_of_reserved h hr]
      refine Works.arbiterRounds_keeps (P := fun v => v.contour? j = some d) (fun v g r hv _ _ entering => ?_) 4 _
        ((Works.freed_contour?_other hj).trans hd)
      have other : j ≠ r.contour := by
        rintro rfl
        obtain ⟨c', hc', hs'⟩ := (Works.isEntering_iff _ _).mp entering
        cases hc'.symm.trans hv
        exact hs hs'
      exact (Works.contour?_modContour_other v r.contour j _ other).trans hv

/-! ## The contours a teardown reaches (R159) -/

/-- A teardown of station `st` aborts the contour. -/
abbrev Contour.reached (c : Contour) (st : St) : Prop := c.cfg.station = st ∧ (c.state = .queued ∨ c.state.working = true)

/-- The contour with slots reserved as an arbiter may have granted them. -/
def Contour.reserved (c : Contour) (r : Nat) : Contour := { c with prog := { c.prog with reservation := r } }

/-- `c'` is what a teardown leaves of contour `c`. -/
structure Contour.Torn (c c' : Contour) : Prop where
  state : c'.state = .aborted
  outcome : c'.prog.outcome = some .aborted
  pendingFailure : c'.prog.pendingFailure = none
  arrived : c'.prog.arrived = c.prog.arrived
  cursor : c'.prog.cursor = c.prog.cursor
  reservation : c'.prog.reservation = 0

section

variable {st : St} {acc : Works × Nat × Nat} {j : Nat} {c d : Contour}

theorem Works.abortContour_of_spared {id : Nat} (h : ∀ c, acc.1.contour? id = some c → ¬c.reached st) :
    Works.abortContour st acc id = acc := by
  unfold Works.abortContour
  split
  · rfl
  · exact if_neg (h _ ‹_›)

theorem Works.abortContour_of_reached (hc : acc.1.contour? j = some c) (hr : c.reached st) :
    (Works.abortContour st acc j).1 =
      (acc.1.modContour j fun c =>
        { c with state := .aborted, prog := { c.prog with pendingFailure := none, outcome := some .aborted } }).release j := by
  simp only [Works.abortContour, hc, if_pos hr]

/-- The contour that is reached. -/
theorem Works.abortContour_torn (hc : acc.1.contour? j = some c) (hr : c.reached st) :
    ∃ c', (Works.abortContour st acc j).1.contour? j = some c' ∧ c.Torn c' := by
  have aborted : (acc.1.modContour j fun c =>
      { c with state := .aborted, prog := { c.prog with pendingFailure := none, outcome := some .aborted } }).contour? j
        = some { c with state := .aborted, prog := { c.prog with pendingFailure := none, outcome := some .aborted } } :=
    (Works.contour?_modContour_same _ _ _).trans (by rw [hc, Option.map_some])
  refine ⟨_, (Works.abortContour_of_reached hc hr ▸ Works.release_contour? aborted nofun), ?_⟩
  exact ⟨rfl, rfl, rfl, rfl, rfl, rfl⟩

/-- Another contour, or one that is not reached, changes at most in the slots granted to it. -/
theorem Works.abortContour_contour?_other {id : Nat} (hd : acc.1.contour? j = some d) (h : j ≠ id ∨ ¬d.reached st) :
    ∃ r, (Works.abortContour st acc id).1.contour? j = some (d.reserved r) := by
  by_cases reached : ∃ c, acc.1.contour? id = some c ∧ c.reached st
  case neg =>
    rw [Works.abortContour_of_spared fun c hc hr => reached ⟨c, hc, hr⟩]
    exact ⟨d.prog.reservation, hd⟩
  case pos =>
    obtain ⟨c, hc, hr⟩ := reached
    have other : j ≠ id := by
      rintro rfl
      cases hc.symm.trans hd
      exact h.elim (fun ne => ne rfl) fun spared => spared hr
    rw [Works.abortContour_of_reached hc hr]
    obtain ⟨r, hrel⟩ := Works.release_contour?_other (w := acc.1.modContour id fun c =>
      { c with state := .aborted, prog := { c.prog with pendingFailure := none, outcome := some .aborted } }) other
    refine ⟨r, hrel.trans ?_⟩
    rw [Works.contour?_modContour_other _ _ _ _ other, hd, Option.map_some, Contour.reserved]

/-- A contour that is ABORTED stays as it is. -/
theorem Works.abortContour_contour?_aborted {id : Nat} (hd : acc.1.contour? j = some d) (hs : d.state = .aborted) :
    (Works.abortContour st acc id).1.contour? j = some d := by
  have spared : ¬d.reached st := fun ⟨_, hr⟩ => by
    rw [hs] at hr
    exact absurd hr (by decide)
  by_cases reached : ∃ c, acc.1.contour? id = some c ∧ c.reached st
  case neg => rw [Works.abortContour_of_spared fun c hc hr => reached ⟨c, hc, hr⟩, hd]
  case pos =>
    obtain ⟨c, hc, hr⟩ := reached
    have other : j ≠ id := by
      rintro rfl
      cases hc.symm.trans hd
      exact spared hr
    rw [Works.abortContour_of_reached hc hr]
    exact Works.release_contour?_kept other ((Works.contour?_modContour_other _ _ _ _ other).trans hd)
      (by rw [hs]; nofun)

/-! ### One after another -/

variable (ids : List Nat)

theorem Works.abortContours_aborted (hd : acc.1.contour? j = some d) (hs : d.state = .aborted) :
    (ids.foldl (Works.abortContour st) acc).1.contour? j = some d := by
  induction ids generalizing acc with
  | nil => exact hd
  | cons id ids ih => exact ih (Works.abortContour_contour?_aborted hd hs)

theorem Works.abortContours_spared {r : Nat} (hd : acc.1.contour? j = some (c.reserved r)) (h : ¬c.reached st) :
    ∃ r, (ids.foldl (Works.abortContour st) acc).1.contour? j = some (c.reserved r) := by
  induction ids generalizing acc r with
  | nil => exact ⟨r, hd⟩
  | cons id ids ih =>
    obtain ⟨r', hd'⟩ := Works.abortContour_contour?_other (id := id) hd (.inr h)
    exact ih hd'

theorem Works.abortContours_torn {r : Nat} (hd : acc.1.contour? j = some (c.reserved r)) (h : c.reached st) (hj : j ∈ ids) :
    ∃ c', (ids.foldl (Works.abortContour st) acc).1.contour? j = some c' ∧ c.Torn c' := by
  induction ids generalizing acc r with
  | nil => cases hj
  | cons id ids ih =>
    by_cases hi : j = id
    · subst hi
      obtain ⟨c', hc', torn⟩ := Works.abortContour_torn hd h
      exact ⟨c', Works.abortContours_aborted ids hc' torn.state, torn.state, torn.outcome, torn.pendingFailure,
        torn.arrived, torn.cursor, torn.reservation⟩
    · obtain ⟨r', hd'⟩ := Works.abortContour_contour?_other (st := st) hd (.inl hi)
      exact ih hd' (List.mem_of_ne_of_mem hi hj)

theorem Works.abortContours_time : (ids.foldl (Works.abortContour st) acc).1.time = acc.1.time := by
  induction ids generalizing acc with
  | nil => rfl
  | cons id ids ih =>
    rw [List.foldl_cons, ih]
    by_cases reached : ∃ c, acc.1.contour? id = some c ∧ c.reached st
    · obtain ⟨c, hc, hr⟩ := reached
      rw [Works.abortContour_of_reached hc hr, Works.release_time, Works.modContour_time]
    · rw [Works.abortContour_of_spared fun c hc hr => reached ⟨c, hc, hr⟩]

end

/-! ## The queue (R159) -/

section

variable {w : Works} {st : St}

theorem Works.discardQueue_of_nil (h : (w.station st).adm.queue = []) :
    w.discardQueue st =
      (w.markReports st (w.station st).directiveMarks .discarded).upd st fun x => { x with directiveMarks := [] } := by
  simp only [Works.discardQueue, h, List.getLast?_nil]

theorem Works.discardQueue_of_last {e : QEntry} (h : (w.station st).adm.queue.getLast? = some e) :
    w.discardQueue st =
      ((((w.markReports st (w.station st).directiveMarks .discarded).upd st fun x =>
        { x with directiveMarks := [] }).markReports st ((w.station st).adm.queue.filterMap QEntry.mark) .discarded).upd st
          fun x => { x with adm := { x.adm with queue := [] }.setConsumed e.seq }).progressUpdate st := by
  simp only [Works.discardQueue, h]

/-- Step 1 of R159 leaves the queue empty and no contour changed. -/
theorem Works.discardQueue_queue (w : Works) (st : St) :
    ((w.discardQueue st).station st).adm.queue = [] ∧ (w.discardQueue st).time = w.time
      ∧ (w.discardQueue st).contours = w.contours := by
  cases hl : (w.station st).adm.queue.getLast? with
  | none =>
    have empty : (w.station st).adm.queue = [] := List.getLast?_eq_none_iff.mp hl
    obtain ⟨handles, rs, lost, hs⟩ := Works.markReports_station w st (w.station st).directiveMarks .discarded
    rw [Works.discardQueue_of_nil empty, Works.station_upd_same, hs]
    exact ⟨empty, Works.markReports_time _ _ _ _, Works.markReports_contours _ _ _ _⟩
  | some e =>
    rw [Works.discardQueue_of_last hl]
    refine ⟨?_, ?_, ?_⟩
    · obtain ⟨rs, lost, hs⟩ := Works.progressUpdate_station
        ((((w.markReports st (w.station st).directiveMarks .discarded).upd st fun x =>
          { x with directiveMarks := [] }).markReports st ((w.station st).adm.queue.filterMap QEntry.mark) .discarded).upd st
            fun x => { x with adm := { x.adm with queue := [] }.setConsumed e.seq }) st
      rw [hs, Works.station_upd_same]
      rfl
    · rw [Works.progressUpdate_time, Works.upd_time, Works.markReports_time, Works.upd_time, Works.markReports_time]
    · rw [Works.progressUpdate_contours, Works.upd_contours, Works.markReports_contours, Works.upd_contours,
        Works.markReports_contours]

/-! ## The clearing -/

/-- The station's work is gone: what a teardown clears before it aborts contours. -/
def Station.bare (x : Station) : Station :=
  { x with
    current := none, deferred := [], recovery := none, closing := none, catchWait := none, pass := none
    returned := [], breakPending := false, failureCutDue := false }

/-- The contours of the station aborted in R159's order, with how many and how many uncut tabs. -/
def Works.torn (w : Works) (st : St) : Works × Nat × Nat :=
  (w.teardownOrder st).foldl (Works.abortContour st) ((w.discardQueue st).upd st Station.bare, 0, 0)

theorem Works.clearProgram_eq (w : Works) (st : St) :
    w.clearProgram st =
      ((w.torn st).1.report st
        (.teardown (((w.station st).adm.program.map fun p => p.tag).getD 0)
          ((w.station st).adm.queue.head?.map fun e => e.seq) (w.station st).adm.queue.length (w.torn st).2.1
          (w.torn st).2.2 ((w.station st).teardown.getD .request) (w.station st).wire)).upd st Station.toIdle := by
  cases hp : (w.station st).adm.program with
  | none => simp only [Works.clearProgram, hp] <;> rfl
  | some p => simp only [Works.clearProgram, hp] <;> rfl

/-- The station after the clearing: IDLE, with its work gone and its counts and wire kept. -/
theorem Works.clearProgram_station (w : Works) (st : St) :
    ∃ (adm : Admission) (act : Activity) (rs : List Report) (lost : Nat), adm.queue = [] ∧
      (w.clearProgram st).station st =
        Station.toIdle
          { (w.station st).bare with
            adm := adm, directiveMarks := [], activity := act, reports := rs, lost := lost } := by
  obtain ⟨adm, rs, lost, hd⟩ := Works.discardQueue_station w st
  have queue : adm.queue = [] := by
    have h := (Works.discardQueue_queue w st).1
    rwa [hd] at h
  have bare : ((w.discardQueue st).upd st Station.bare).station st =
      Station.bare { w.station st with adm := adm, directiveMarks := [], reports := rs, lost := lost } := by
    rw [Works.station_upd_same, hd]
  obtain ⟨handles, act, rs', lost', ht⟩ :=
    Works.abortContours_station st st (w.teardownOrder st) ((w.discardQueue st).upd st Station.bare, 0, 0)
  obtain ⟨rs'', lost'', hr⟩ := Works.report_station (w.torn st).1 st
    (.teardown (((w.station st).adm.program.map fun p => p.tag).getD 0)
      ((w.station st).adm.queue.head?.map fun e => e.seq) (w.station st).adm.queue.length (w.torn st).2.1
      (w.torn st).2.2 ((w.station st).teardown.getD .request) (w.station st).wire)
  refine ⟨{ adm with handles := handles }, act, rs'', lost'', queue, ?_⟩
  rw [Works.clearProgram_eq, Works.station_upd_same, hr, Works.torn, ht, bare]
  rfl

/-- The contours of the table are all reached. -/
theorem Works.mem_teardownOrder {w : Works} {st : St} {id : Nat} {c : Contour} (h : w.contour? id = some c) :
    id ∈ w.teardownOrder st :=
  List.mem_append_right _ (List.mem_map.mpr ⟨(id, c), mem_of_tableFind h, rfl⟩)

theorem Works.clearProgram_contour? (w : Works) (st : St) (id : Nat) :
    (w.clearProgram st).contour? id = (w.torn st).1.contour? id := by
  rw [Works.clearProgram_eq, Works.contour?_upd, Works.report_contour?]

theorem Works.bare_contour? {w : Works} {st : St} {id : Nat} {c : Contour} (h : w.contour? id = some c) :
    ((w.discardQueue st).upd st Station.bare).contour? id = some (c.reserved c.prog.reservation) :=
  (Works.contour?_congr (Works.discardQueue_queue w st).2.2 id).trans h

/-- Settles O56: the clearing is `Works.clearProgram`; the contours come by induction over R159's order, in which each of
the table stands. -/
theorem teardownClearsTheProgram : Obligations.TeardownClearsTheProgram := by
  unfold Obligations.TeardownClearsTheProgram
  intro w st x
  refine ⟨Works.act_of_idle, fun held tail => ?_, fun aborting busy => ?_, fun aborting empty still hl wire => ?_,
    fun aborting empty still wire => ?_, fun aborting empty still wire => ?_⟩
  · rw [Works.act_of_held rfl held]
    exact Works.intakeAct_eq_none fun id c hc => tail id c (Works.current?_eq_some_iff.mp hc).1
      (Works.current?_eq_some_iff.mp hc).2
  · rw [Works.act_of_aborting rfl aborting, Works.teardownAct_eq_none rfl busy]
  · rw [Works.act_of_aborting rfl aborting, Works.teardownAct_of_wire rfl empty still wire, Works.issue_of_up hl]
    exact congrArg some (Works.upd_congr _ _ (by rw [Station.push, show (w.station st).pair = [] from empty]; rfl))
  · obtain ⟨adm, act, rs, lost, queue, here⟩ := Works.clearProgram_station w st
    refine ⟨w.clearProgram st, ?_, ?_, ?_⟩
    · rw [Works.act_of_aborting rfl aborting, Works.teardownAct_of_clear rfl empty still wire]
    · rw [Works.clearProgram_eq, Works.upd_time, Works.report_time, Works.torn, Works.abortContours_time]
      exact (Works.discardQueue_queue w st).2.1
    · rw [here]
      refine ⟨rfl, rfl, rfl, rfl, rfl, queue, rfl, rfl, rfl, rfl, rfl, empty, rfl, rfl, rfl, rfl, rfl, rfl, rfl,
        fun id c hc hst => ⟨fun reached => ?_, fun spared => ?_⟩⟩
      · obtain ⟨c', hc', torn⟩ := Works.abortContours_torn (w.teardownOrder st)
          (acc := ((w.discardQueue st).upd st Station.bare, 0, 0)) (Works.bare_contour? hc) ⟨hst, reached⟩
          (Works.mem_teardownOrder hc)
        exact ⟨c', (w.clearProgram_contour? st id).trans hc', torn.state, torn.outcome, torn.pendingFailure, torn.arrived,
          torn.cursor, fun _ => torn.reservation⟩
      · obtain ⟨r, hc'⟩ := Works.abortContours_spared (w.teardownOrder st)
          (acc := ((w.discardQueue st).upd st Station.bare, 0, 0)) (Works.bare_contour? hc)
          (st := st) fun reached => spared reached.2
        exact ⟨_, (w.clearProgram_contour? st id).trans hc', rfl, rfl, rfl⟩
  · refine ⟨w.discardQueue st, Works.discardQueue_of_nil, fun e => Works.discardQueue_of_last, ?_⟩
    rw [Works.act_of_aborting rfl aborting, Works.teardownAct_of_clear rfl empty still wire, Works.clearProgram_eq]
    rfl

end

end Sys2Proof.Machine
end

section
/-! PROOFS. O46: CUT reports end the wire cut (R59, R69, R72 to R74, R122, R137, R153). -/

namespace Sys2Proof.Machine

/-! ## The end of a contour's work, and what it leaves of its station -/

theorem Works.reportContourEnd_station (w : Works) (st : St) (id : Nat) :
    ∃ rs lost, (w.reportContourEnd st id).station st = { w.station st with reports := rs, lost := lost } := by
  unfold Works.reportContourEnd
  split
  · exact ⟨_, _, rfl⟩
  · exact Works.report_station _ _ _

theorem Works.complete_station_any (w : Works) (st : St) (id : Nat) :
    ∃ adm rs lost, (w.complete st id).station st =
      { (w.station st).leaveContour with
        adm := adm, completed := saturate Config.countLimit (w.station st).completed, reports := rs, lost := lost } := by
  obtain ⟨handles, act, rs, lost, hr⟩ := Works.release_station
    (w.modContour id fun c => { c with state := .complete, prog := { c.prog with outcome := some .success } }) id st
  obtain ⟨rs', lost', he⟩ := Works.reportContourEnd_station
    (((w.modContour id fun c => { c with state := .complete, prog := { c.prog with outcome := some .success } }).release
      id).upd st fun x => { x.leaveContour with completed := saturate Config.countLimit x.completed }) st id
  refine ⟨{ (w.station st).adm with handles := handles }, rs', lost', he.trans ?_⟩
  rw [Works.station_upd_same, hr]
  rfl

theorem Works.reportContourEnd_time (w : Works) (st : St) (id : Nat) : (w.reportContourEnd st id).time = w.time := by
  unfold Works.reportContourEnd
  split
  · rfl
  · exact Works.report_time _ _ _

theorem Works.complete_time (w : Works) (st : St) (id : Nat) : (w.complete st id).time = w.time := by
  unfold Works.complete
  rw [Works.reportContourEnd_time, Works.upd_time, Works.release_time, Works.modContour_time]

/-- The time, and the station's pair and wire, are as they were. -/
structure Works.SameDrive (w : Works) (st : St) (v : Works) : Prop where
  time : v.time = w.time
  pair : (v.station st).pair = (w.station st).pair
  wire : (v.station st).wire = (w.station st).wire

namespace Works.SameDrive

variable {w v : Works} {st : St}

theorem refl (w : Works) (st : St) : w.SameDrive st w := ⟨rfl, rfl, rfl⟩

theorem upd (h : w.SameDrive st v) {f : Station → Station} (hp : (f (v.station st)).pair = (v.station st).pair)
    (hw : (f (v.station st)).wire = (v.station st).wire) : w.SameDrive st (v.upd st f) where
  time := h.time
  pair := by rw [Works.station_upd_same, hp, h.pair]
  wire := by rw [Works.station_upd_same, hw, h.wire]

theorem modContour (h : w.SameDrive st v) {id : Nat} {g : Contour → Contour} : w.SameDrive st (v.modContour id g) :=
  ⟨h.time, h.pair, h.wire⟩

theorem addHolds (h : w.SameDrive st v) {rs : Holds} {code : Option Byte} {cause : Option Cause} :
    w.SameDrive st (v.addHolds st rs code cause) := by
  obtain ⟨holds, state, stop, reports, lost, hs⟩ := Works.addHolds_station v st rs code cause
  exact ⟨(Works.addHolds_time v st rs code cause).trans h.time, by rw [hs]; exact h.pair, by rw [hs]; exact h.wire⟩

/-- A closing that is looked at leaves the pair and the wire, whether or not it completes. -/
theorem tryComplete (h : w.SameDrive st v) : w.SameDrive st (v.tryComplete st) := by
  unfold Works.tryComplete
  split
  · split
    · obtain ⟨adm, rs, lost, hs⟩ := Works.complete_station_any v st _
      exact ⟨(Works.complete_time _ _ _).trans h.time, by rw [hs]; exact h.pair, by rw [hs]; exact h.wire⟩
    · exact h
  · exact h

end Works.SameDrive

/-! ## What follows a CUT report, by the wire cut's purpose -/

/-- What the CUT report of a wire cut does once it has left the pair and the wire is UNTHREADED. -/
def Works.afterCut (w : Works) (st : St) : CutPurpose → Works
  | .mainEnd => w.mainEndCut st
  | .closing => w.closingCut st
  | .recovery => w.choosePath st
  | .entry | .directive | .failure | .pass | .teardown => w

section

variable {w : Works} {st : St}

theorem Works.cutReport_of_wireCut {n : Byte} {purpose : CutPurpose} {rest : List Op}
    (h : (w.station st).pair = { issue := n, body := .wireCut purpose } :: rest) :
    w.cutReport st = ((w.upd st fun x => { x with pair := rest }.setWire .unthreaded).afterCut st purpose).settle st := by
  cases purpose <;> simp only [Works.cutReport, h, Works.afterCut]

theorem Works.cutReport_of_other (h : ∀ o rest, (w.station st).pair = o :: rest → o.body.isWireCut = false) :
    w.cutReport st = w := by
  unfold Works.cutReport
  split
  case h_1 o rest hp =>
    have other := h o rest hp
    split
    case h_1 purpose hb => exact absurd other (by rw [hb]; nofun)
    all_goals rfl
  case h_2 => rfl

variable {id : Nat} {c : Contour} (hc : w.current? st = some (id, c))

include hc

theorem Works.mainEndCut_of_ended (hs : c.state = .cutting) (he : c.mainEnded = true) (hf : c.prog.pendingFailure = none) :
    w.mainEndCut st =
      (w.modContour id fun c => c.setState .tailIntake).upd st fun x => { x with activity := .tailIntake } := by
  simp only [Works.mainEndCut, hc, if_pos (And.intro hs (And.intro he hf))]

theorem Works.mainEndCut_of_failing (hf : c.prog.pendingFailure ≠ none) : w.mainEndCut st = w := by
  simp only [Works.mainEndCut, hc, if_neg (fun both : _ ∧ _ ∧ _ => hf both.2.2)]

theorem Works.choosePath_of_wireCut {r : Recovery} (hr : (w.station st).recovery = some r) (hs : r.step = .wireCut) :
    w.choosePath st = w.upd st fun x =>
      { x with
        recovery := some
          (if c.cfg.inKerf = true ∧ r.place = .inCut then { r with path := some .inKerf, step := .inKerf }
           else { r with path := some .startHole, step := .travel }) } := by
  simp only [Works.choosePath, hc, hr, if_pos hs]
  split
  · exact Works.modRecovery_of_record hr _
  · exact Works.modRecovery_of_record hr _

/-- The closing's CUT has come; under PAUSE the part is asked to be removed, and a satisfied closing completes. -/
theorem Works.closingCut_of_closing {k : Closing} (hk : (w.station st).closing = some k) :
    w.closingCut st =
      (if c.plan.confirmRequired = .pause then
          (w.upd st fun x => { x with closing := some { k with cutReceived := true } }).addHolds st
            { partRemoval := true } none none
        else w.upd st fun x => { x with closing := some { k with cutReceived := true } }).tryComplete st := by
  have marked : (w.upd st fun x => { x with closing := x.closing.map fun k => { k with cutReceived := true } }) =
      w.upd st fun x => { x with closing := some { k with cutReceived := true } } :=
    Works.upd_congr _ _ (by rw [hk, Option.map_some])
  simp only [Works.closingCut, hc, hk, marked]
  rfl

end

/-- What follows a CUT report leaves the time, the pair and the wire. -/
theorem Works.SameDrive.afterCut {w v : Works} {st : St} (h : w.SameDrive st v) (purpose : CutPurpose) :
    w.SameDrive st (v.afterCut st purpose) := by
  cases purpose with
  | entry | directive | failure | pass | teardown => exact h
  | mainEnd =>
    rw [Works.afterCut, Works.mainEndCut]
    split
    · split
      · exact h.modContour.upd rfl rfl
      · exact h
    · exact h
  | recovery =>
    rw [Works.afterCut, Works.choosePath]
    split
    · split
      · split
        · exact h.upd rfl rfl
        · exact h.upd rfl rfl
      · exact h
    · exact h
  | closing =>
    rw [Works.afterCut, Works.closingCut]
    split
    · extract_lets w1 w2
      refine SameDrive.tryComplete ?_
      unfold w2
      split
      · exact (h.upd rfl rfl).addHolds
      · exact h.upd rfl rfl
    · exact h

end Sys2Proof.Machine
end

section
/-! PROOFS. O46, put together. -/

namespace Sys2Proof.Machine

/-- A report of a drive is taken with the port's link UP. -/
theorem exec_cut (s : State) (st : St) :
    exec (.cut st) s = .next ({ s with works := (s.works.linked st true).cutReport st } : State).upstream := rfl

/-- The closing's wire cut, and the wire cut a failure called for, are what an ACTIVE station issues (R72, R153). -/
theorem Works.AtWork.act_of_closing {w : Works} {st : St} {id : Nat} {c : Contour} (h : w.AtWork st id c)
    (hr : (w.station st).recovery = none) (he : (w.station st).tc.episode = none) (hs : c.state = .closing) :
    w.act st = w.closingAct st := h.act_eq.trans (Works.contourAct_of_closing rfl h.free hr he hs)

/-- Settles O46: `Works.closingAct` and `Works.idleAct` issue the wire cuts, and `Works.afterCut` follows each by its
purpose. -/
theorem cutReportsEndTheWireCut : Obligations.CutReportsEndTheWireCut := by
  unfold Obligations.CutReportsEndTheWireCut
  refine ⟨fun w st => ?issues, fun s st => ?reports⟩
  case issues =>
    intro x issued hs ha hr hl
    refine ⟨fun id c k hi hc hcl hf hrec he hk => ⟨fun uncut empty => ?_, fun done => ?_⟩, fun hi due => ?_⟩
    · have work : w.AtWork st id c := ⟨hs, ha, hr, hi, hc, hf, by rw [hcl]; nofun⟩
      rw [work.act_of_closing hrec he hcl, Works.closingAct_of_uncut rfl hk uncut empty, Works.issue_of_up hl]
      rfl
    · have work : w.AtWork st id c := ⟨hs, ha, hr, hi, hc, hf, by rw [hcl]; nofun⟩
      rw [work.act_of_closing hrec he hcl]
      refine Works.closingAct_eq_none rfl fun k' hk' ⟨uncut, empty⟩ => ?_
      cases hk.symm.trans hk'
      exact done.elim (fun cut => absurd (cut.symm.trans uncut) nofun) fun occupied => occupied empty
    · have idle : w.act st = w.idleAct st := Works.act_of_no_contour rfl hs ha hr hi
      refine ⟨fun empty => ?_, fun occupied => ?_⟩
      · rw [idle]
        split
        case isTrue unthreaded => rw [Works.idleAct_of_cut_done rfl due empty unthreaded]
        case isFalse wired =>
          rw [Works.idleAct_of_cut_due rfl due empty wired, Works.issue_of_up hl]
          rfl
      · rw [idle, Works.idleAct_of_cut_due_occupied rfl due occupied]
  case reports =>
    intro x w0
    have here : w0.station st = { x with linkUp := true } := Works.station_upd_same _ _ _
    refine ⟨fun other => ?_, fun n purpose rest hp => ?_⟩
    · have ignored : w0.cutReport st = w0 := Works.cutReport_of_other fun o rest hp => other o rest (by rwa [here] at hp)
      exact (exec_cut s st).trans (congrArg (fun w => Host.Outcome.next ({ s with works := w } : State).upstream) ignored)
    · intro bare
      have cut : w0.cutReport st = (bare.afterCut st purpose).settle st :=
        Works.cutReport_of_wireCut (by rw [here]; exact hp)
      have now : bare.station st =
          { x with linkUp := true, pair := rest, wire := .unthreaded, wirePlace := .nowhere } := by
        rw [Works.station_upd_same, here]
      obtain ⟨time, pair, wire⟩ := (Works.SameDrive.refl bare st).afterCut purpose
      refine ⟨bare.afterCut st purpose, (exec_cut s st).trans
        (congrArg (fun w => Host.Outcome.next ({ s with works := w } : State).upstream) cut), time, by rw [pair, now],
        by rw [wire, now], ?_, fun id c hi hc => ?_⟩
      · rintro (rfl | rfl | rfl | rfl | rfl) <;> rfl
      · have current : bare.current? st = some (id, c) := Works.current?_of_record (by rw [now]; exact hi) hc
        refine ⟨?_, ?_, ?_⟩
        · rintro rfl hs he
          refine ⟨fun hf => ?_, fun hf => Works.mainEndCut_of_failing current hf⟩
          rw [Works.afterCut, Works.mainEndCut_of_ended current hs he hf]
          refine ⟨(Works.contour?_modContour_same _ _ _).trans ?_, by rw [Works.station_upd_same]⟩
          rw [show bare.contour? id = some c from hc]
          rfl
        · rintro r rfl hr hs
          rw [Works.afterCut, Works.choosePath_of_wireCut current (by rw [now]; exact hr) hs, Works.station_upd_same]
        · rintro k rfl hk
          have closing := Works.closingCut_of_closing current (k := k) (by rw [now]; exact hk)
          have marked (v : Works) (hv : (v.station st).closing = some { k with cutReceived := true })
              (hcur : v.current? st = some (id, c))
              (h : c.state ≠ .closing ∨ c.prog.pendingFailure ≠ none ∨ k.satisfied = false) : v.tryComplete st = v := by
            refine Works.tryComplete_of_not fun j d k' hj hk' ⟨hs, hf, _, sat⟩ => ?_
            cases hcur.symm.trans hj
            cases hv.symm.trans hk'
            obtain open_ | failing | unsatisfied := h
            · exact open_ hs
            · exact failing hf
            · exact absurd (sat.symm.trans unsatisfied) nofun
          have received : (bare.upd st fun x => { x with closing := some { k with cutReceived := true } }).current? st
              = some (id, c) := (Works.current?_upd rfl).trans current
          refine ⟨fun plain waits => ?_, fun plain hs hf sat => ?_, fun pause unsatisfied => ?_⟩
          · rw [Works.afterCut, closing, if_neg plain]
            exact marked _ (by rw [Works.station_upd_same]) received waits
          · rw [Works.afterCut, closing, if_neg plain]
            exact Works.tryComplete_of_ready received (congrArg Station.closing (Works.station_upd_same _ _ _)) hs hf rfl sat
          · rw [Works.afterCut, closing, if_pos pause]
            obtain ⟨holds, state, stop, reports, lost, hs⟩ := Works.addHolds_station
              (bare.upd st fun x => { x with closing := some { k with cutReceived := true } }) st { partRemoval := true }
              none none
            refine marked _ (by rw [hs, Works.station_upd_same]) ?_ (.inr (.inr unsatisfied))
            refine Works.current?_of_record ?_ ?_
            · rw [hs, Works.station_upd_same, now]
              exact hi
            · exact (Works.contour?_congr (Works.addHolds_contours _ _ _ _ _) id).trans hc

end Sys2Proof.Machine
end

section
/-! PROOFS. O47: probes lead to CONFIRM or ABANDON (R98, R99, R104), by the episode as it stands. -/

namespace Sys2Proof.Machine

/-- The result bytes are 0, 1 and 2. -/
theorem probeResultOf_eq_none {b : Byte} (h : 2 < b.toNat) : probeResultOf b = none := by
  unfold probeResultOf
  split
  · omega
  · omega
  · omega
  · rfl

section

variable {w : Works} {st : St}

/-! ## Reports that are disregarded (R104) -/

theorem Works.probe_of_disregarded {b : Byte}
    (h : (w.station st).tc.episode = none ∨ (w.station st).tc.state ≠ .feeding ∨ (w.station st).stopAwaited = true
      ∨ 2 < b.toNat) : w.probe st b = w := by
  unfold Works.probe
  extract_lets x
  split
  case h_1 e r he hr =>
    refine if_neg fun ⟨feeding, _, unstopped⟩ => ?_
    obtain none | other | stopped | byte := h
    · exact absurd (none.symm.trans he) nofun
    · exact other feeding
    · exact absurd (stopped.symm.trans unstopped) nofun
    · exact absurd ((probeResultOf_eq_none byte).symm.trans hr) nofun
  case h_2 => rfl

theorem Works.probeEnd_of_disregarded
    (h : (w.station st).tc.episode = none ∨ (w.station st).tc.state ≠ .feeding ∨ (w.station st).stopAwaited = true) :
    w.probeEnd st = w := by
  unfold Works.probeEnd
  extract_lets x
  split
  case h_1 => rfl
  case h_2 e he =>
    refine if_neg fun ⟨feeding, unstopped⟩ => ?_
    obtain none | other | stopped := h
    · exact absurd (none.symm.trans he) nofun
    · exact other feeding
    · exact absurd (stopped.symm.trans unstopped) nofun

/-! ## Reports that count -/

variable {e : Episode} (he : (w.station st).tc.episode = some e)

include he

theorem Works.modEpisode_of_record (f : Episode → Episode) :
    w.modEpisode st f = w.upd st fun x => { x with tc := { x.tc with episode := some (f e) } } :=
  Works.upd_congr _ _ (by simp only [he, Option.map_some])

theorem Works.probe_of_broken {b : Byte} (hb : e.broken = true) : w.probe st b = w := by
  unfold Works.probe
  extract_lets x
  split
  case h_1 e' r he' hr =>
    cases he.symm.trans he'
    exact if_neg fun ⟨_, whole, _⟩ => absurd (hb.symm.trans whole) nofun
  case h_2 => rfl

/-- The N-th consecutive SEATED, a miss or a broken attempt ends the operation outstanding, and another is issued. -/
theorem Works.toolEnds_push (f : Episode → Episode) (state : ThreaderState) (body : OpBody) :
    ((w.modEpisode st f).upd st fun x => { x with pair := [], tc := { x.tc with state := state } }).upd st
        (fun x => x.push body) =
      w.upd st fun x =>
        { x with
          tc := { x.tc with episode := some (f e), state := state }
          pair := [{ issue := x.nextIssue, body := body }], nextIssue := x.nextIssue + 1, underrunReported := false } := by
  rw [Works.modEpisode_of_record he, Works.upd_upd, Works.upd_upd]
  rfl

section

variable (hs : (w.station st).tc.state = .feeding) (ha : (w.station st).stopAwaited = false)

include hs ha

theorem Works.probeEnd_of_feeding :
    w.probeEnd st =
      w.upd st fun x =>
        { x with
          tc := { x.tc with
            episode := some (if e.broken = true then { e with reason := some .broken }
              else { e with attempts := e.attempts + 1, reason := some .miss })
            state := .abandoning }
          pair := [{ issue := x.nextIssue, body := .abandon }], nextIssue := x.nextIssue + 1
          underrunReported := false } := by
  rw [← Works.toolEnds_push he (fun e => if e.broken = true then { e with reason := some .broken }
    else { e with attempts := e.attempts + 1, reason := some .miss }) .abandoning .abandon]
  simp only [Works.probeEnd, he, if_pos (And.intro hs ha), Works.toolEnds, Works.issueAbandon, Works.modThreader,
    Works.upd_upd]

variable (hb : e.broken = false)

include hb

theorem Works.probe_of_short :
    w.probe st 1 = w.upd st fun x =>
      { x with tc := { x.tc with episode := some { e with lockRun := 0, lastMiss := some .short } } } := by
  simp only [Works.probe, he, show probeResultOf 1 = some .short from rfl, if_pos (And.intro hs (And.intro hb ha))]
  exact Works.modEpisode_of_record he _

theorem Works.probe_of_long :
    w.probe st 2 = w.upd st fun x =>
      { x with tc := { x.tc with episode := some { e with lockRun := 0, lastMiss := some .long } } } := by
  simp only [Works.probe, he, show probeResultOf 2 = some .long from rfl, if_pos (And.intro hs (And.intro hb ha))]
  exact Works.modEpisode_of_record he _

theorem Works.probe_of_seated (hn : e.lockRun + 1 ≠ e.lockCount) :
    w.probe st 0 = w.upd st fun x =>
      { x with tc := { x.tc with episode := some { e with lockRun := e.lockRun + 1 } } } := by
  simp only [Works.probe, he, show probeResultOf 0 = some .seated from rfl, if_pos (And.intro hs (And.intro hb ha)),
    if_neg hn]
  exact Works.modEpisode_of_record he _

theorem Works.probe_of_locked (hn : e.lockRun + 1 = e.lockCount) :
    w.probe st 0 = w.upd st fun x =>
      { x with
        tc := { x.tc with episode := some { e with lockRun := e.lockRun + 1 }, state := .locked }
        pair := [{ issue := x.nextIssue, body := .confirm }], nextIssue := x.nextIssue + 1
        underrunReported := false } := by
  rw [← Works.toolEnds_push he (fun e => { e with lockRun := e.lockRun + 1 }) .locked .confirm]
  simp only [Works.probe, he, show probeResultOf 0 = some .seated from rfl, if_pos (And.intro hs (And.intro hb ha)),
    if_pos hn, Works.toolEnds, Works.modThreader, Works.upd_upd]

end

end

/-! ## O47 -/

theorem exec_probe {s : State} {st : St} {b : Byte} {v : Works} (h : (s.works.linked st true).probe st b = v) :
    exec (.probe st b) s = .next ({ s with works := v.settle st } : State).upstream := by
  rw [← h]
  rfl

theorem exec_probeEnd {s : State} {st : St} {v : Works} (h : (s.works.linked st true).probeEnd st = v) :
    exec (.probeEnd st) s = .next ({ s with works := v.settle st } : State).upstream := by
  rw [← h]
  rfl

/-- Settles O47: each clause is a branch of `Works.probe` or `Works.probeEnd`. -/
theorem probesLeadToConfirmOrAbandon : Obligations.ProbesLeadToConfirmOrAbandon := by
  unfold Obligations.ProbesLeadToConfirmOrAbandon
  intro s st x w0 after episode issue
  have here : (s.works.linked st true).station st = { x with linkUp := true } := Works.station_upd_same _ _ _
  refine ⟨fun b h => exec_probe (Works.probe_of_disregarded (by rw [here]; exact h)),
    fun h => exec_probeEnd (Works.probeEnd_of_disregarded (by rw [here]; exact h)), fun e he hs ha => ?_⟩
  have he : ((s.works.linked st true).station st).tc.episode = some e := by rw [here]; exact he
  have hs : ((s.works.linked st true).station st).tc.state = .feeding := by rw [here]; exact hs
  have ha : ((s.works.linked st true).station st).stopAwaited = false := by rw [here]; exact ha
  refine ⟨fun hb b => exec_probe (Works.probe_of_broken he hb), fun hb => ⟨?_, ?_, fun hn => ?_, fun hn => ?_⟩,
    fun hb => ?_, fun hb => ?_⟩
  · exact exec_probe (Works.probe_of_short he hs ha hb)
  · exact exec_probe (Works.probe_of_long he hs ha hb)
  · exact exec_probe (Works.probe_of_seated he hs ha hb hn)
  · exact exec_probe (Works.probe_of_locked he hs ha hb hn)
  · exact exec_probeEnd ((Works.probeEnd_of_feeding he hs ha).trans (by simp only [hb, Bool.false_eq_true, if_false]; rfl))
  · exact exec_probeEnd ((Works.probeEnd_of_feeding he hs ha).trans (by simp only [hb, if_true]; rfl))

end Sys2Proof.Machine
end

section
/-! PROOFS. O48: THREADED succeeds or takes lockout (R96, R97, R102 to R105, R108). -/

namespace Sys2Proof.Machine

/-! ## Changes of one station alone -/

/-- Of time, pool, contours and stations only station `st` may differ. -/
structure Works.OnlyStation (w : Works) (st : St) (v : Works) : Prop where
  time : v.time = w.time
  pool : v.pool = w.pool
  contours : v.contours = w.contours
  other : ∀ j ≠ st, v.station j = w.station j

namespace Works.OnlyStation

variable {w v : Works} {st : St}

theorem refl (w : Works) (st : St) : w.OnlyStation st w := ⟨rfl, rfl, rfl, fun _ _ => rfl⟩

theorem upd (h : w.OnlyStation st v) {f : Station → Station} : w.OnlyStation st (v.upd st f) :=
  ⟨h.time, h.pool, h.contours, fun j hj => (Works.station_upd_other _ _ _ _ hj).trans (h.other j hj)⟩

theorem report (h : w.OnlyStation st v) {b : ReportBody} : w.OnlyStation st (v.report st b) :=
  ⟨(Works.report_time _ _ _).trans h.time, (Works.report_pool _ _ _).trans h.pool,
    (Works.report_contours _ _ _).trans h.contours, fun j hj => (Works.report_station_other _ _ _ _ hj).trans (h.other j hj)⟩

theorem endRecovery (h : w.OnlyStation st v) : w.OnlyStation st (v.endRecovery st) := by
  unfold Works.endRecovery
  extract_lets w1 w2
  split
  · exact h.upd.upd
  · exact h.upd.upd.upd

theorem contour? (h : w.OnlyStation st v) (id : Nat) : v.contour? id = w.contour? id := Works.contour?_congr h.contours id

end Works.OnlyStation

/-! ## The beginning of an episode (R96), and its end (R107) -/

section

variable {w : Works} {st : St}

/-- With an attempt to make, an episode begins with every counter 0. -/
theorem Works.startEpisode_of_limit {kind : EpisodeKind} {id : Nat} {c : Contour}
    (h : (if kind = .startHole then c.cfg.attemptLimit
      else ((w.station st).tc.staged.getD (w.station st).tc.params).inKerfLimit) ≠ 0) :
    w.startEpisode st kind id c = w.upd st fun x =>
      { x with
        tc :=
          { state := x.tc.state, ok := false, fail := false
            params := (w.station st).tc.staged.getD (w.station st).tc.params, staged := none
            episode := some
              { kind := kind, contour := id
                attemptLimit := if kind = .startHole then c.cfg.attemptLimit
                  else ((w.station st).tc.staged.getD (w.station st).tc.params).inKerfLimit
                lockCount := ((w.station st).tc.staged.getD (w.station st).tc.params).lockCount
                offsetBound := ((w.station st).tc.staged.getD (w.station st).tc.params).offsetBound
                relock := ((w.station st).tc.staged.getD (w.station st).tc.params).relock
                attempts := 0, offset := 0, lockRun := 0, lastMiss := none, broken := false, lockoutPending := false
                reason := none, clearanceDue := false } } } := by
  cases kind with
  | startHole =>
    have due : ¬0 = c.cfg.attemptLimit := Ne.symm h
    simp only [Works.startEpisode, Works.attemptDue, Works.modThreader, Works.modEpisode, Works.station_upd_same, if_neg due,
      Works.upd_upd, Option.map_some]
    rfl
  | inKerf =>
    have due : ¬0 = ((w.station st).tc.staged.getD (w.station st).tc.params).inKerfLimit := Ne.symm h
    simp only [Works.startEpisode, Works.attemptDue, Works.modThreader, Works.modEpisode, Works.station_upd_same, if_neg due,
      Works.upd_upd, Option.map_some]
    rfl

variable {e : Episode} (he : (w.station st).tc.episode = some e)

include he

theorem Works.endEpisode_threaded :
    w.endEpisode st .threaded =
      (w.upd st fun x => { x with tc := { x.tc with state := .idle, ok := true, fail := false, episode := none } }).report st
        (.thread e.kind e.contour .threaded e.attempts e.offset) := by
  simp only [Works.endEpisode, he]
  rfl

theorem Works.endEpisode_aborted :
    w.endEpisode st .aborted =
      (w.upd st fun x => { x with tc := { x.tc with state := .idle, ok := false, fail := true, episode := none } }).report st
        (.thread e.kind e.contour .aborted e.attempts e.offset) := by
  simp only [Works.endEpisode, he]
  rfl

theorem Works.endEpisode_failed {out : ThreadOutcome} (h : out = .threadAttempts ∨ out = .adjLimit ∨ out = .lockout) :
    w.endEpisode st out =
      ((w.upd st fun x => { x with tc := { x.tc with state := .idle, ok := false, fail := true, episode := none } }).report st
        (.thread e.kind e.contour out e.attempts e.offset)).raise flagThreadFailed := by
  obtain rfl | rfl | rfl := h
  all_goals
    simp only [Works.endEpisode, he]
    rfl

theorem Works.episodeSucceeds_of_record :
    w.episodeSucceeds st =
      (((w.upd st fun x => { x with tc := { x.tc with state := .idle, ok := true, fail := false, episode := none } }).report
        st (.thread e.kind e.contour .threaded e.attempts e.offset)).modContour e.contour fun c =>
          { c with prog := { c.prog with offset := e.offset } }).afterSuccess st e.kind := by
  simp only [Works.episodeSucceeds, he, Works.endEpisode_threaded he]

/-! ## THREADED -/

/-- The operation outstanding leaves the pair, and the episode is changed. -/
theorem Works.toolEnds_modEpisode (f : Episode → Episode) (state : ThreaderState) :
    (w.modEpisode st f).toolEnds st state =
      w.upd st fun x => { x with pair := [], tc := { x.tc with state := state, episode := some (f e) } } := by
  rw [Works.modEpisode_of_record he, Works.toolEnds, Works.modThreader, Works.upd_upd, Works.upd_upd]

end

section

variable {w : Works} {st : St}

theorem Works.threaded_of_disregarded (h : (w.station st).tc.episode = none ∨ (w.station st).tc.state ≠ .locked) :
    w.threaded st = w := by
  unfold Works.threaded
  extract_lets x
  split
  case h_1 => rfl
  case h_2 e he => exact if_neg (h.resolve_left fun none => absurd (none.symm.trans he) nofun)

variable {e : Episode} (he : (w.station st).tc.episode = some e) (hs : (w.station st).tc.state = .locked)

include he hs

theorem Works.threaded_of_aborting (ha : (w.station st).state = .aborting) :
    w.threaded st =
      ((w.upd st fun x =>
        { x with pair := [], tc := { x.tc with state := .idle, ok := false, fail := true, episode := none } }).report st
          (.thread e.kind e.contour .aborted (e.attempts + 1) e.offset)).upd st fun x =>
        { x with wire := if e.lockoutPending = true then .broken else .threaded } := by
  simp only [Works.threaded, he, if_pos hs, if_pos ha, Works.toolEnds_modEpisode he]
  rw [Works.endEpisode_aborted (e := { e with attempts := e.attempts + 1 }) (by rw [Works.station_upd_same]), Works.upd_upd]

theorem Works.threaded_of_lockout (ha : (w.station st).state ≠ .aborting) (hl : e.lockoutPending = true) :
    w.threaded st = w.upd st fun x =>
      { x with
        pair := []
        tc := { x.tc with
          state := .idle, episode := some { e with attempts := e.attempts + 1, reason := some .lockout } } } := by
  simp only [Works.threaded, he, if_pos hs, if_neg ha, hl, if_true, Works.takeLockout, Works.toolEnds_modEpisode he]

/-- Success (R103): the report is built, the contour's offset is the episode's, and the work follows. -/
theorem Works.threaded_of_success (ha : (w.station st).state ≠ .aborting) (hl : e.lockoutPending = false) :
    w.threaded st =
      (((w.upd st fun x =>
        { x with pair := [], tc := { x.tc with state := .idle, ok := true, fail := false, episode := none } }).report st
          (.thread e.kind e.contour .threaded (e.attempts + 1) e.offset)).modContour e.contour fun c =>
            { c with prog := { c.prog with offset := e.offset } }).afterSuccess st e.kind := by
  have counted : ((w.upd st fun x =>
      { x with pair := [], tc := { x.tc with state := .idle, episode := some { e with attempts := e.attempts + 1 } } }).station
        st).tc.episode = some { e with attempts := e.attempts + 1 } := by rw [Works.station_upd_same]
  have pending : ¬e.lockoutPending = true := by rw [hl]; nofun
  have succeeds : w.threaded st =
      ((w.modEpisode st fun e => { e with attempts := e.attempts + 1 }).toolEnds st .idle).episodeSucceeds st := by
    simp only [Works.threaded, he, if_pos hs, if_neg ha, if_neg pending]
  rw [succeeds, Works.toolEnds_modEpisode he, Works.episodeSucceeds_of_record counted, Works.upd_upd]

end

/-! ## What follows a success, at large -/

/-- Two stations that differ at most in activity, pass and recovery. -/
theorem Station.exists_work {x y : Station}
    (h : y = { x with activity := y.activity, pass := y.pass, recovery := y.recovery }) :
    ∃ act pass recovery, y = { x with activity := act, pass := pass, recovery := recovery } := ⟨_, _, _, h⟩

theorem Works.endRecovery_station (w : Works) (st : St) :
    ∃ act pass recovery, (w.endRecovery st).station st =
      { w.station st with activity := act, pass := pass, recovery := recovery } := by
  unfold Works.endRecovery
  extract_lets w1 w2
  have here : w2.station st = { w.station st with recovery := none, activity := w1.workActivity st } := by
    simp only [w2, w1, Works.station_upd_same]
  split
  · exact Station.exists_work (by rw [here])
  · exact Station.exists_work (by rw [Works.station_upd_same, here])

/-- The work that follows a success changes the station's recovery, pass and activity, and its contour's state. -/
theorem Works.afterSuccess_station (w : Works) (st : St) (kind : EpisodeKind) :
    ∃ act pass recovery, (w.afterSuccess st kind).station st =
      { w.station st with
        wire := .threaded, wirePlace := if kind = .startHole then .startHole else .inCut
        activity := act, pass := pass, recovery := recovery } := by
  have place : (match kind with
      | .startHole => WirePlace.startHole
      | .inKerf => .inCut) = if kind = .startHole then .startHole else .inCut := by cases kind <;> rfl
  unfold Works.afterSuccess
  extract_lets place' w1
  have here : w1.station st =
      { w.station st with wire := .threaded, wirePlace := if kind = .startHole then .startHole else .inCut } := by
    rw [← place]
    exact Works.station_upd_same _ _ _
  suffices h : ∀ v : Works, (∃ act pass recovery, v.station st =
      { w1.station st with activity := act, pass := pass, recovery := recovery }) → ∃ act pass recovery, v.station st =
      { w.station st with
        wire := .threaded, wirePlace := if kind = .startHole then .startHole else .inCut
        activity := act, pass := pass, recovery := recovery } by
    refine h _ ?_
    split
    · exact Station.exists_work rfl
    · split
      · split
        · exact Works.endRecovery_station w1 st
        · split
          · exact Works.endRecovery_station w1 st
          · exact Station.exists_work (by rw [Works.modRecovery, Works.station_upd_same])
      · split
        · exact Station.exists_work (by rw [Works.modPass, Works.station_upd_same])
        · exact Station.exists_work (by rw [Works.station_upd_same, Works.modContour_station])
  rintro v ⟨act, pass, recovery, hv⟩
  exact ⟨act, pass, recovery, by rw [hv, here]⟩

/-- Beside the station only the state of its current contour changes. -/
theorem Works.afterSuccess_frame (w : Works) (st : St) (kind : EpisodeKind) :
    (w.afterSuccess st kind).time = w.time ∧ (w.afterSuccess st kind).pool = w.pool
      ∧ (∀ j ≠ st, (w.afterSuccess st kind).station j = w.station j)
      ∧ (∀ j, (w.station st).current ≠ some j → (w.afterSuccess st kind).contour? j = w.contour? j)
      ∧ ∀ j, ((w.afterSuccess st kind).contour? j).map (fun c => c.prog.offset)
        = (w.contour? j).map fun c => c.prog.offset := by
  have alone {v : Works} (h : w.OnlyStation st v) : v.time = w.time ∧ v.pool = w.pool
      ∧ (∀ j ≠ st, v.station j = w.station j) ∧ (∀ j, (w.station st).current ≠ some j → v.contour? j = w.contour? j)
      ∧ ∀ j, (v.contour? j).map (fun c => c.prog.offset) = (w.contour? j).map fun c => c.prog.offset :=
    ⟨h.time, h.pool, h.other, fun j _ => h.contour? j, fun j => congrArg _ (h.contour? j)⟩
  unfold Works.afterSuccess
  extract_lets place w1
  have wired : w.OnlyStation st w1 := (Works.OnlyStation.refl w st).upd
  split
  · exact alone wired
  · rename_i id c hc
    split
    · split
      · exact alone wired.endRecovery
      · split
        · exact alone wired.endRecovery
        · exact alone wired.upd
    · split
      · exact alone wired.upd
      · refine ⟨rfl, rfl, fun j hj => ?_, fun j hj => ?_, fun j => ?_⟩
        · rw [Works.station_upd_other _ _ _ _ hj, Works.modContour_station, wired.other j hj]
        · have current : (w.station st).current = some id := by
            have h := (Works.current?_eq_some_iff.mp hc).1
            rwa [show w1.station st = _ from Works.station_upd_same _ _ _] at h
          exact Works.contour?_modContour_other w1 id j _ fun hj' => hj (hj' ▸ current)
        · by_cases hj : j = id
          · subst hj
            rw [Works.contour?_upd, Works.contour?_modContour_same, Option.map_map]
            rfl
          · rw [Works.contour?_upd, Works.contour?_modContour_other _ _ _ _ hj]
            rfl

end Sys2Proof.Machine
end

section
/-! PROOFS. O48, put together. -/

namespace Sys2Proof.Machine

/-- The episode of the current contour, of an entry, a pass or a recovery that asked for it, is what is gone on with. -/
theorem Works.AtWork.act_of_episode {w : Works} {st : St} {id : Nat} {c : Contour} (h : w.AtWork st id c) {e : Episode}
    (he : (w.station st).tc.episode = some e)
    (hr : ∀ r, (w.station st).recovery = some r → r.step = .inKerf ∨ r.step = .startHole) : w.act st = w.threadAct st e := by
  cases hrec : (w.station st).recovery with
  | none => exact h.act_eq.trans (Works.contourAct_of_episode rfl h.free hrec he)
  | some r => exact (h.act_of_recovery hrec).trans (Works.recoveryAct_of_episode rfl (hr r hrec) he)

/-- An operation issued into an empty pair of a station whose threading controller goes to another state. -/
theorem Works.push_tool {w : Works} {st : St} (hp : (w.station st).pair = []) (body : OpBody) (state : ThreaderState) :
    ((w.modThreader st fun t => { t with state := state }).upd st fun x => x.push body) = w.upd st fun x =>
      { x with
        tc := { x.tc with state := state }
        pair := [{ issue := x.nextIssue, body := body }], nextIssue := x.nextIssue + 1, underrunReported := false } := by
  rw [Works.modThreader, Works.upd_upd]
  exact Works.upd_congr _ _ (by rw [Station.push, hp, List.nil_append])

theorem exec_threaded {s : State} {st : St} {v : Works} (h : (s.works.linked st true).threaded st = v) :
    exec (.threaded st) s = .next ({ s with works := v.settle st } : State).upstream := by
  rw [← h]
  rfl

/-- Settles O48: `Works.threaded` by the state of the controller, `Works.threadAct`, and what `Works.afterSuccess` leaves
alone. -/
theorem threadedSucceedsOrTakesLockout : Obligations.ThreadedSucceedsOrTakesLockout := by
  unfold Obligations.ThreadedSucceedsOrTakesLockout
  refine ⟨fun w st kind id c => ?begin, fun w st id c e => ?act, fun s st => ?report⟩
  case begin =>
    intro t p limit h
    exact Works.startEpisode_of_limit h
  case act =>
    intro x issued hs ha hret hl hi hc hf ht he hr
    have work : w.AtWork st id c := ⟨hs, ha, hret, hi, hc, hf, ht⟩
    have act : w.act st = w.threadAct st e := work.act_of_episode he fun r h => hr r h
    refine ⟨fun empty idle => ⟨fun attempt => ?_, fun reason => ?_⟩, fun busy => ?_⟩
    · rw [act, Works.threadAct_of_attempt rfl idle empty attempt, Works.issue_of_up hl, Works.push_tool empty]
    · rw [act, Works.threadAct_of_reason rfl idle empty reason, Works.issue_of_up hl, Works.push_tool empty]
    · rw [act]
      exact Works.threadAct_eq_none (x := x) rfl fun ⟨idle, empty⟩ =>
        busy.elim (fun occupied => occupied empty) fun other => other idle
  case report =>
    intro x w0 ended
    have here : (s.works.linked st true).station st = { x with linkUp := true } := Works.station_upd_same _ _ _
    refine ⟨fun h => exec_threaded (Works.threaded_of_disregarded (by rw [here]; exact h)), fun e he hs ha => ?_,
      fun e he hs ha => ⟨fun hl => ?_, fun hl => ?_⟩⟩
    · exact exec_threaded (Works.threaded_of_aborting (by rw [here]; exact he) (by rw [here]; exact hs)
        (by rw [here]; exact ha))
    · exact exec_threaded (Works.threaded_of_lockout (by rw [here]; exact he) (by rw [here]; exact hs)
        (by rw [here]; exact ha) hl)
    · let built := (ended true).report st (.thread e.kind e.contour .threaded (e.attempts + 1) e.offset)
      let v := built.modContour e.contour fun c => { c with prog := { c.prog with offset := e.offset } }
      have success : (s.works.linked st true).threaded st = v.afterSuccess st e.kind :=
        Works.threaded_of_success (by rw [here]; exact he) (by rw [here]; exact hs) (by rw [here]; exact ha) hl
      have only : s.works.OnlyStation st built := (Works.OnlyStation.refl s.works st).upd.upd.report
      have tool : (ended true).station st =
          { x with
            linkUp := true, pair := [], tc := { x.tc with state := .idle, ok := true, fail := false, episode := none } } := by
        rw [Works.station_upd_same, show w0.station st = { x with linkUp := true } from Works.station_upd_same _ _ _]
        rfl
      obtain ⟨rs, lost, reported⟩ :=
        Works.report_station (ended true) st (.thread e.kind e.contour .threaded (e.attempts + 1) e.offset)
      have now : v.station st = { (ended true).station st with reports := rs, lost := lost } := reported
      obtain ⟨act, pass, recovery, after⟩ := Works.afterSuccess_station v st e.kind
      obtain ⟨time, pool, other, contours, offsets⟩ := Works.afterSuccess_frame v st e.kind
      have follows := Works.afterSuccess_follows v st e.kind
      have current : (v.station st).current = x.current := by rw [now, tool]
      refine ⟨v.afterSuccess st e.kind, exec_threaded success, time.trans only.time, pool.trans only.pool,
        fun j hj => (other j hj).trans (only.other j hj), fun j hj hcur => ?_, ?_, ?_, ?_, ?_, ?_, fun room => ?_,
        fun c hcur hc hrec hpass => ?_, follows⟩
      · rw [contours j (by rw [current, hcur]; exact fun h => hj (Option.some.inj h).symm)]
        exact (Works.contour?_modContour_other built _ j _ hj).trans (only.contour? j)
      · rw [offsets, Works.contour?_modContour_same, only.contour?, Option.map_map]
        rfl
      · rw [after, now, tool]
      · rw [after]
      · rw [after]
      · rw [after, now, tool]
      · have queue : ((ended true).station st).reports = x.reports := by rw [tool]
        have joined := congrArg (fun w : Works => (w.station st).reports) (Works.report_of_room (w := ended true)
          (.thread e.kind e.contour .threaded (e.attempts + 1) e.offset) (by rw [queue]; exact room))
        simp only [Works.station_upd_same, queue] at joined
        rw [after]
        exact joined
      · have inPass : (v.station st).inPass e.contour = false := by
          rw [now, tool, Station.inPass, show x.pass = none from hpass]
          rfl
        have contour : v.contour? e.contour = some { c with prog := { c.prog with offset := e.offset } } := by
          rw [Works.contour?_modContour_same, only.contour?, hc, Option.map_some]
        obtain ⟨-, followed⟩ := follows
        obtain ⟨-, -, -, cutting⟩ := followed e.contour _ (current.trans hcur) contour
        rw [cutting (by rw [now, tool]; exact hrec) inPass]
        refine ⟨?_, by rw [Works.station_upd_same]⟩
        rw [Works.contour?_upd, Works.contour?_modContour_same, Works.contour?_upd, contour]
        rfl

end Sys2Proof.Machine
end

section
/-! PROOFS. O49: ABANDONED acts on its reason (R97, R100, R107, R108, R123, R153, R154). -/

namespace Sys2Proof.Machine

/-- The works with the ABANDON out of the pair, the controller at rest and this episode record. -/
def Works.resting (w : Works) (st : St) (e : Episode) : Works :=
  w.upd st fun x => { x with pair := [], tc := { x.tc with state := .idle, episode := some e } }

/-- The works with the ABANDON out of the pair and the episode ended in failure, its THREAD report built. -/
def Works.episodeLost (w : Works) (st : St) (e : Episode) (out : ThreadOutcome) : Works :=
  (w.upd st fun x =>
    { x with pair := [], tc := { x.tc with state := .idle, ok := false, fail := true, episode := none } }).report st
      (.thread e.kind e.contour out e.attempts e.offset)

section

variable {w : Works} {st : St}

theorem Works.resting_episode (w : Works) (st : St) (e : Episode) :
    ((w.resting st e).station st).tc.episode = some e := by
  rw [Works.resting, Works.station_upd_same]

theorem Works.resting_modEpisode (w : Works) (st : St) (e : Episode) (f : Episode → Episode) :
    (w.resting st e).modEpisode st f = w.resting st (f e) := by
  rw [Works.modEpisode_of_record (w.resting_episode st e), Works.resting, Works.upd_upd]
  rfl

theorem Works.resting_current? (w : Works) (st : St) (e : Episode) : (w.resting st e).current? st = w.current? st :=
  Works.current?_upd rfl

/-! ## The failure of an episode (R107, R123) -/

section

variable {out : ThreadOutcome} (h : out = .threadAttempts ∨ out = .adjLimit ∨ out = .lockout) {e : Episode}

include h

theorem Works.resting_endEpisode :
    (w.resting st e).endEpisode st out = (w.episodeLost st e out).raise flagThreadFailed := by
  rw [Works.endEpisode_failed (w.resting_episode st e) h, Works.resting, Works.upd_upd]
  rfl

/-- An in-kerf episode of a recovery goes on at the start hole. -/
theorem Works.resting_episodeFails_inKerf (hk : e.kind = .inKerf) :
    (w.resting st e).episodeFails st out =
      ((w.episodeLost st e out).raise flagThreadFailed).upd st fun x =>
        { x with recovery := x.recovery.map fun r => { r with path := some .startHole, step := .travel } } := by
  simp only [Works.episodeFails, w.resting_episode st e, hk, Works.resting_endEpisode h]
  rfl

/-- A start-hole one fails the current contour. -/
theorem Works.resting_episodeFails_startHole (hk : e.kind = .startHole) :
    (w.resting st e).episodeFails st out =
      ((w.episodeLost st e out).raise flagThreadFailed).failContour st out.cause none := by
  simp only [Works.episodeFails, w.resting_episode st e, hk, Works.resting_endEpisode h]

end

/-! ## An attempt due (R97) -/

theorem Works.resting_attemptDue {e : Episode} (h : e.attempts ≠ e.attemptLimit) :
    (w.resting st e).attemptDue st =
      w.resting st { e with lockRun := 0, lastMiss := none, broken := false, lockoutPending := false, reason := none } := by
  simp only [Works.attemptDue, w.resting_episode st e, if_neg h, Works.resting_modEpisode]

theorem Works.resting_attemptDue_spent {e : Episode} (h : e.attempts = e.attemptLimit) :
    (w.resting st e).attemptDue st = (w.resting st e).episodeFails st .threadAttempts := by
  simp only [Works.attemptDue, w.resting_episode st e, if_pos h]

/-! ## ABANDONED, by its reason (R100, R102, R105) -/

theorem Works.abandoned_of_disregarded (h : (w.station st).tc.episode = none ∨ (w.station st).tc.state ≠ .abandoning) :
    w.abandoned st = w := by
  unfold Works.abandoned
  extract_lets x
  split
  case h_1 => rfl
  case h_2 e he => exact if_neg (h.resolve_left fun none => absurd (none.symm.trans he) nofun)

/-- The offset that a miss asks for. -/
def Episode.moved (e : Episode) : Int :=
  match e.lastMiss with
  | some .short => e.offset + 1
  | some .long => e.offset - 1
  | none => e.offset

variable {e : Episode} (he : (w.station st).tc.episode = some e) (hs : (w.station st).tc.state = .abandoning)

include he

theorem Works.toolEnds_resting : w.toolEnds st .idle = w.resting st e := by
  rw [Works.toolEnds, Works.modThreader, Works.upd_upd]
  exact Works.upd_congr _ _ (by rw [← he])

include hs

theorem Works.abandoned_of_aborting (ha : (w.station st).state = .aborting) :
    w.abandoned st = (w.episodeLost st e .aborted).upd st fun x => { x with wire := .unthreaded, wirePlace := .nowhere } := by
  simp only [Works.abandoned, he, if_pos hs, if_pos ha, Works.toolEnds_resting he]
  rw [Works.endEpisode_aborted (w.resting_episode st e), Works.resting, Works.upd_upd]
  rfl

variable (ha : (w.station st).state ≠ .aborting)

include ha

theorem Works.abandoned_of_miss_outside (hr : e.reason = some .miss)
    (h : ¬(-(e.offsetBound : Int) ≤ e.moved ∧ e.moved ≤ (e.offsetBound : Int))) :
    w.abandoned st = (w.resting st { e with reason := none }).episodeFails st .adjLimit := by
  have outside : e.moved < -(e.offsetBound : Int) ∨ (e.offsetBound : Int) < e.moved := by omega
  simp only [Works.abandoned, he, if_pos hs, if_neg ha, hr, Works.toolEnds_resting he, Works.resting_modEpisode]
  exact if_pos outside

theorem Works.abandoned_of_miss_inside (hr : e.reason = some .miss)
    (h : -(e.offsetBound : Int) ≤ e.moved ∧ e.moved ≤ (e.offsetBound : Int)) :
    w.abandoned st = (w.resting st { e with reason := none, offset := e.moved }).attemptDue st := by
  have inside : ¬(e.moved < -(e.offsetBound : Int) ∨ (e.offsetBound : Int) < e.moved) := by omega
  simp only [Works.abandoned, he, if_pos hs, if_neg ha, hr, Works.toolEnds_resting he, Works.resting_modEpisode]
  refine (if_neg inside).trans ?_
  rw [Works.resting_modEpisode]
  rfl

theorem Works.abandoned_of_retry (hr : e.reason = some .broken ∨ (e.reason = some .lockout ∧ e.relock = .retry)) :
    w.abandoned st = (w.resting st { e with reason := none }).attemptDue st := by
  obtain broken | ⟨lockout, retry⟩ := hr
  · simp only [Works.abandoned, he, if_pos hs, if_neg ha, broken, Works.toolEnds_resting he, Works.resting_modEpisode]
  · simp only [Works.abandoned, he, if_pos hs, if_neg ha, lockout, retry, Works.toolEnds_resting he,
      Works.resting_modEpisode]

theorem Works.abandoned_of_fail (hr : e.reason = some .lockout) (hl : e.relock = .fail) :
    w.abandoned st = (w.resting st { e with reason := none }).episodeFails st .lockout := by
  simp only [Works.abandoned, he, if_pos hs, if_neg ha, hr, hl, Works.toolEnds_resting he, Works.resting_modEpisode]

theorem Works.abandoned_of_clearance (hr : e.reason = some .clearance) :
    w.abandoned st = (w.resting st { e with reason := none, clearanceDue := false }).attemptDue st := by
  simp only [Works.abandoned, he, if_pos hs, if_neg ha, hr, Works.toolEnds_resting he, Works.resting_modEpisode]

theorem Works.abandoned_of_no_reason (hr : e.reason = none) : w.abandoned st = w.resting st e := by
  have same : ({ e with reason := none } : Episode) = e := by rw [← hr]
  simp only [Works.abandoned, he, if_pos hs, if_neg ha, hr, Works.toolEnds_resting he, Works.resting_modEpisode]
  rw [same]

end

/-! ## O49 -/

/-- A failed episode: in-kerf, without a contour, and with one (R107, R123, R153, R154). -/
theorem Works.resting_episodeFails {w : Works} {st : St} {e : Episode} {out : ThreadOutcome}
    (h : out = .threadAttempts ∨ out = .adjLimit ∨ out = .lockout) :
    (e.kind = .inKerf →
        (w.resting st e).episodeFails st out =
          ((w.episodeLost st e out).raise flagThreadFailed).upd st fun x =>
            { x with recovery := x.recovery.map fun r => { r with path := some .startHole, step := .travel } })
      ∧ (e.kind = .startHole → (∀ id, (w.station st).current = some id → w.contour? id = none) →
        (w.resting st e).episodeFails st out = (w.episodeLost st e out).raise flagThreadFailed)
      ∧ ∀ id c, e.kind = .startHole → (w.station st).current = some id → w.contour? id = some c →
        ((w.episodeLost st e out).raise flagThreadFailed).Fails st id c out.cause none
          ((w.resting st e).episodeFails st out) := by
  have only : w.OnlyStation st (w.episodeLost st e out) := (Works.OnlyStation.refl w st).upd.report
  obtain ⟨rs, lost, here⟩ := Works.report_station (w.upd st fun x =>
    { x with pair := [], tc := { x.tc with state := .idle, ok := false, fail := true, episode := none } }) st
    (.thread e.kind e.contour out e.attempts e.offset)
  have current : ((w.episodeLost st e out).station st).current = (w.station st).current := by
    rw [Works.episodeLost, here, Works.station_upd_same]
  refine ⟨Works.resting_episodeFails_inKerf h, fun hk nobody => ?_, fun id c hk hi hc => ?_⟩
  · have none : ((w.episodeLost st e out).raise flagThreadFailed).current? st = none :=
      Option.eq_none_iff_forall_ne_some.mpr fun p hp => by
        obtain ⟨hi, hc⟩ := Works.current?_eq_some_iff.mp (show _ = some (p.1, p.2) from hp)
        have missing := nobody p.1 (current.symm.trans hi)
        exact absurd (hc.symm.trans ((only.contour? p.1).trans missing)) nofun
    rw [Works.resting_episodeFails_startHole h hk, Works.failContour, none]
  · rw [Works.resting_episodeFails_startHole h hk]
    exact Works.failContour_fails out.cause none (current.trans hi) ((only.contour? id).trans hc)

theorem exec_abandoned {s : State} {st : St} {v : Works} (h : (s.works.linked st true).abandoned st = v) :
    exec (.abandoned st) s = .next ({ s with works := v.settle st } : State).upstream := by
  rw [← h]
  rfl

/-- Settles O49: `Works.abandoned` by its reason, with the failure and the next attempt as they follow it. -/
theorem abandonedActsOnItsReason : Obligations.AbandonedActsOnItsReason := by
  unfold Obligations.AbandonedActsOnItsReason
  intro s st x w0
  have here : (s.works.linked st true).station st = { x with linkUp := true } := Works.station_upd_same _ _ _
  refine ⟨fun h => exec_abandoned (Works.abandoned_of_disregarded (by rw [here]; exact h)), fun e he hs => ?_⟩
  intro due ended failed spent moved inside
  have he : ((s.works.linked st true).station st).tc.episode = some e := by rw [here]; exact he
  have hs : ((s.works.linked st true).station st).tc.state = .abandoning := by rw [here]; exact hs
  have fails {e' : Episode} {out : ThreadOutcome} (h : out = .threadAttempts ∨ out = .adjLimit ∨ out = .lockout)
      (act : (s.works.linked st true).abandoned st = ((s.works.linked st true).resting st e').episodeFails st out)
      (hk : e'.kind = e.kind) (hc : e'.contour = e.contour) (ha : e'.attempts = e.attempts) :
      failed out out.cause e'.offset := by
    have built : (ended out e'.offset).raise flagThreadFailed =
        ((s.works.linked st true).episodeLost st e' out).raise flagThreadFailed := by
      rw [Works.episodeLost, hk, hc, ha]
      rfl
    obtain ⟨inKerf, nobody, contour⟩ := Works.resting_episodeFails (w := s.works.linked st true) (st := st) (e := e') h
    rw [← built, hk] at inKerf nobody contour
    rw [here] at nobody contour
    exact ⟨_, exec_abandoned act, inKerf, nobody, contour⟩
  have attempt {e' : Episode} (act : (s.works.linked st true).abandoned st =
        ((s.works.linked st true).resting st { e' with reason := none }).attemptDue st)
      (hk : e'.kind = e.kind) (hc : e'.contour = e.contour) (ha : e'.attempts = e.attempts)
      (hl : e'.attemptLimit = e.attemptLimit) : spent e' := by
    refine ⟨fun more => ?_, fun last => ?_⟩
    · refine exec_abandoned (act.trans (Works.resting_attemptDue ?_))
      rw [ha, hl]
      exact more
    · have last : e'.attempts = e'.attemptLimit := by rw [ha, hl, last]
      exact fails (e' := { e' with reason := none }) (.inl rfl) (act.trans (Works.resting_attemptDue_spent last)) hk hc ha
  refine ⟨fun ha => ?_, fun ha => ?_⟩
  · have ha : ((s.works.linked st true).station st).state ≠ .aborting := by rw [here]; exact ha
    refine ⟨fun miss outside => ?_, fun miss inside => ?_, fun retry => ?_, fun lockout fail => ?_, fun clearance => ?_,
      fun none => ?_⟩
    · exact fails (e' := { e with reason := none }) (.inr (.inl rfl))
        (Works.abandoned_of_miss_outside he hs ha miss outside) rfl rfl rfl
    · exact attempt (e' := { e with offset := moved }) (Works.abandoned_of_miss_inside he hs ha miss inside) rfl rfl rfl rfl
    · exact attempt (Works.abandoned_of_retry he hs ha retry) rfl rfl rfl rfl
    · exact fails (e' := { e with reason := none }) (.inr (.inr rfl)) (Works.abandoned_of_fail he hs ha lockout fail) rfl rfl rfl
    · have act := Works.abandoned_of_clearance he hs ha clearance
      exact attempt (e' := { e with clearanceDue := false }) act rfl rfl rfl rfl
    · refine exec_abandoned ((Works.abandoned_of_no_reason he hs ha none).trans ?_)
      exact Works.upd_congr _ _ (by rw [← he])
  · exact exec_abandoned (Works.abandoned_of_aborting he hs (by rw [here]; exact ha))

end Sys2Proof.Machine
end

section
/-! PROOFS. O44, the station in a drive loss (R59, R63, R116). -/

namespace Sys2Proof.Machine

/-! ## What a settled break leaves of a station with nothing outstanding -/

/-- What a drive loss looks at, beside the state. -/
def Station.driveView (x : Station) : List Op × Wire × Bool × Option TeardownCause × Bool :=
  (x.pair, x.wire, x.linkUp, x.teardown, x.stopAwaited)

/-- Nothing that a drive loss looks at has changed, but that a working station may have become HELD. -/
structure Works.Calm (w : Works) (st : St) (v : Works) : Prop where
  time : v.time = w.time
  view : (v.station st).driveView = (w.station st).driveView
  state : (v.station st).state = (w.station st).state ∨ ((w.station st).working = true ∧ (v.station st).state = .held)

namespace Works.Calm

variable {w v u : Works} {st : St}

theorem refl (w : Works) (st : St) : w.Calm st w := ⟨rfl, rfl, .inl rfl⟩

theorem same (h : w.Calm st v) (ht : u.time = v.time) (hv : (u.station st).driveView = (v.station st).driveView)
    (hs : (u.station st).state = (v.station st).state) : w.Calm st u :=
  ⟨ht.trans h.time, hv.trans h.view, by rw [hs]; exact h.state⟩

theorem upd (h : w.Calm st v) {f : Station → Station} (hv : (f (v.station st)).driveView = (v.station st).driveView)
    (hs : (f (v.station st)).state = (v.station st).state) : w.Calm st (v.upd st f) :=
  h.same rfl (by rw [Works.station_upd_same, hv]) (by rw [Works.station_upd_same, hs])

theorem modContour (h : w.Calm st v) {id : Nat} {g : Contour → Contour} : w.Calm st (v.modContour id g) :=
  h.same rfl rfl rfl

theorem raise (h : w.Calm st v) {n : Nat} : w.Calm st (v.raise n) := h.same rfl rfl rfl

theorem report (h : w.Calm st v) {b : ReportBody} : w.Calm st (v.report st b) := by
  obtain ⟨rs, lost, hs⟩ := Works.report_station v st b
  exact h.same (Works.report_time _ _ _) (by rw [hs]; rfl) (by rw [hs])

theorem markReports (h : w.Calm st v) {ms : List MarkRef} {o : MarkOutcome} : w.Calm st (v.markReports st ms o) := by
  obtain ⟨handles, rs, lost, hs⟩ := Works.markReports_station v st ms o
  exact h.same (Works.markReports_time _ _ _ _) (by rw [hs]; rfl) (by rw [hs])

theorem progressUpdate (h : w.Calm st v) : w.Calm st (v.progressUpdate st) := by
  obtain ⟨rs, lost, hs⟩ := Works.progressUpdate_station v st
  exact h.same (Works.progressUpdate_time _ _) (by rw [hs]; rfl) (by rw [hs])

theorem release (h : w.Calm st v) {id : Nat} : w.Calm st (v.release id) := by
  obtain ⟨handles, a, rs, lost, hs⟩ := Works.release_station v id st
  exact h.same (Works.release_time _ _) (by rw [hs]; rfl) (by rw [hs])

theorem reportContourEnd (h : w.Calm st v) {id : Nat} : w.Calm st (v.reportContourEnd st id) := by
  obtain ⟨rs, lost, hs⟩ := Works.reportContourEnd_station v st id
  exact h.same (Works.reportContourEnd_time _ _ _) (by rw [hs]; rfl) (by rw [hs])

/-- A hold calls for no STOP with nothing outstanding. -/
theorem addHolds (h : w.Calm st v) (hp : (w.station st).pair = []) {rs : Holds} {code : Option Byte} {cause : Option Cause} :
    w.Calm st (v.addHolds st rs code cause) := by
  unfold Works.addHolds
  extract_lets x new all w1 w2
  split
  case isFalse => exact h
  case isTrue both =>
    have working : (w.station st).working = true := by
      obtain same | ⟨working, -⟩ := h.state
      · have hx : x.working = true := both.1
        rwa [Station.working, show x.state = _ from same] at hx
      · exact working
    have held : w.Calm st w1 :=
      ⟨h.time, by rw [Works.station_upd_same]; exact h.view, .inr ⟨working, by rw [Works.station_upd_same]⟩⟩
    have reported : w.Calm st (w2.raise (flagStationHeld st)) := held.report.raise
    have empty : ((w2.raise (flagStationHeld st)).station st).pair = [] := (congrArg Prod.fst reported.view).trans hp
    have quiet : ((w2.raise (flagStationHeld st)).station st).callStop = (w2.raise (flagStationHeld st)).station st :=
      if_neg (by rw [empty]; decide)
    exact reported.upd (by rw [quiet]) (by rw [quiet])

theorem discardContour (h : w.Calm st v) {id : Nat} : w.Calm st (v.discardContour st id) := by
  unfold Works.discardContour
  extract_lets mine
  split
  · exact h
  · exact (h.markReports.upd rfl rfl).progressUpdate

theorem failSkip (h : w.Calm st v) {id : Nat} {cause : Cause} : w.Calm st (v.failSkip st id cause) :=
  ((h.modContour.upd rfl rfl).discardContour.release.upd rfl rfl).reportContourEnd

theorem failContour (h : w.Calm st v) (hp : (w.station st).pair = []) {cause : Cause} {code : Option Byte} :
    w.Calm st (v.failContour st cause code) := by
  unfold Works.failContour
  split
  · exact h
  · split
    · exact h.raise.failSkip
    · exact h.raise.modContour.addHolds hp

theorem settleBreak (h : w.Calm st v) (hp : (w.station st).pair = []) {position : Option (Nat × Nat)} {code : Option Byte} :
    w.Calm st (v.settleBreak st position code) := by
  have bare : w.Calm st (v.upd st fun x =>
      { x with
        breakPending := false, wirePlace := .nowhere
        returned := x.returned.filter fun r => !r.body.isBrokenWork }) := h.upd rfl rfl
  unfold Works.settleBreak
  extract_lets place w1
  split
  · exact bare
  · extract_lets pass boundary count exceeded w2 w3 w4
    have counted : w.Calm st w4 := bare.modContour.report.raise.upd rfl rfl
    split
    · exact counted.failContour hp
    · exact counted

end Works.Calm

/-! ## Drive loss -/

/-- The pair emptied unanswered, the wire UNKNOWN, and a charged break settled: drive loss before its teardown. -/
def Works.adrift (w : Works) (st : St) : Works :=
  let v := w.upd st fun x => { x with pair := [], stopAwaited := false, wire := .unknown, tc := { x.tc with state := .idle } }
  (if (v.station st).breakPending = true then v.settleBreak st none none else v).upd st fun x =>
    { x with wirePlace := .nowhere }

section

variable {w : Works} {st : St}

theorem Works.driveLoss_of_working (h : ((w.adrift st).station st).state = .active ∨ ((w.adrift st).station st).state = .held) :
    w.driveLoss st = (w.adrift st).startTeardown st .driveLost := by
  rw [Works.adrift] at h
  obtain active | held := h
  · simp only [Works.driveLoss, active]
    rfl
  · simp only [Works.driveLoss, held]
    rfl

theorem Works.driveLoss_of_aborting (h : ((w.adrift st).station st).state = .aborting) :
    w.driveLoss st = (w.adrift st).abortIdleEpisode st := by
  rw [Works.adrift] at h
  simp only [Works.driveLoss, h]
  rfl

theorem Works.driveLoss_of_idle (h : ((w.adrift st).station st).state = .idle) : w.driveLoss st = w.adrift st := by
  rw [Works.adrift] at h
  simp only [Works.driveLoss, h]
  rfl

/-- The station adrift: nothing outstanding or awaited, the wire UNKNOWN and NONE its place. -/
theorem Works.adrift_station (w : Works) (st : St) :
    (w.adrift st).time = w.time
      ∧ ((w.adrift st).station st).driveView = ([], .unknown, (w.station st).linkUp, (w.station st).teardown, false)
      ∧ ((w.adrift st).station st).wirePlace = .nowhere
      ∧ (((w.adrift st).station st).state = (w.station st).state
        ∨ ((w.station st).working = true ∧ ((w.adrift st).station st).state = .held)) := by
  let v := w.upd st fun x => { x with pair := [], stopAwaited := false, wire := .unknown, tc := { x.tc with state := .idle } }
  have here : v.station st =
      { w.station st with
        pair := [], stopAwaited := false, wire := .unknown, tc := { (w.station st).tc with state := .idle } } :=
    Works.station_upd_same _ _ _
  have calm : v.Calm st (w.adrift st) := by
    refine Works.Calm.upd (f := fun x => { x with wirePlace := .nowhere }) ?_ rfl rfl
    split
    · exact (Works.Calm.refl v st).settleBreak (by rw [here])
    · exact Works.Calm.refl v st
  obtain ⟨time, view, state⟩ := calm
  refine ⟨time, by rw [view, here]; rfl, congrArg Station.wirePlace (Works.station_upd_same _ _ _), ?_⟩
  rw [here] at state
  exact state

end

end Sys2Proof.Machine
end

section
/-! PROOFS. O44, the messages of a drive from their bytes (R193, 12.5). -/

namespace Sys2Proof.Machine

/-- What lies between the length byte and the check, by where it stands in the bytes. -/
theorem payload_eq_content {bytes : List Byte} (h : 4 ≤ bytes.length) :
    payload bytes = byteAt bytes 1 :: (bytes.take (bytes.length - 2)).drop 2 := by
  match bytes, h with
  | len :: code :: rest, h =>
    have count : (len :: code :: rest).length - 3 = rest.length - 2 + 1 := by
      simp only [List.length_cons] at h ⊢
      omega
    have upto : (len :: code :: rest).length - 2 = rest.length - 2 + 2 := by
      simp only [List.length_cons] at h ⊢
      omega
    rw [payload, count, upto]
    rfl

theorem content_length {bytes : List Byte} (h : 4 ≤ bytes.length) :
    ((bytes.take (bytes.length - 2)).drop 2).length + 4 = bytes.length := by
  rw [List.length_drop, List.length_take]
  omega

/-- A byte of the content stands two places on in the bytes. -/
theorem byteAt_content {bytes : List Byte} {i : Nat} (h : i + 4 < bytes.length) :
    byteAt ((bytes.take (bytes.length - 2)).drop 2) i = byteAt bytes (i + 2) := by
  have within : 2 + i < bytes.length - 2 := by omega
  rw [byteAt, byteAt, List.getD_eq_getElem?_getD, List.getD_eq_getElem?_getD, List.getElem?_drop,
    List.getElem?_take_of_lt within, Nat.add_comm]

/-- How many bytes of fields the report of a code has (12.5). -/
def reportFields (code : Nat) : Nat := if code = 8 ∨ code = 11 then 1 else if code = 9 ∨ code = 10 then 5 else 0

/-- The report that the bytes of a message carry, by its code (12.5). -/
def reportOf (bytes : List Byte) : DriveReport :=
  let code := (byteAt bytes 1).toNat
  let f : Nat → Byte := fun i => byteAt bytes (i + 2)
  if code = 8 then .done (f 0)
  else if code = 9 then .stopped (if f 0 = 0 then none else some (f 1)) (f 2 ++ f 3 ++ f 4)
  else if code = 10 then .fault (f 0) (f 1 ++ f 2 ++ f 3) (f 4)
  else if code = 11 then .probe (f 0)
  else if code = 12 then .probeEnd else if code = 13 then .threaded
  else if code = 14 then .abandoned else .cut

/-- Sound bytes form a report when their code is one of a report and their number fits it. -/
theorem receiveReport_of_sound {bytes : List Byte} (h : sound bytes = true) :
    receiveReport bytes =
      if (8 ≤ (byteAt bytes 1).toNat ∧ (byteAt bytes 1).toNat ≤ 15)
          ∧ bytes.length = 4 + reportFields (byteAt bytes 1).toNat then some (reportOf bytes)
      else none := by
  obtain ⟨hlen, -⟩ := (sound_iff bytes).mp h
  have content := content_length hlen
  have at' {i : Nat} (hi : i + 4 < bytes.length) := byteAt_content hi
  simp only [receiveReport, h, if_true, payload_eq_content hlen]
  generalize (bytes.take (bytes.length - 2)).drop 2 = f at content at'
  have fits {code n : Nat} (hc : (byteAt bytes 1).toNat = code) (hn : f.length = n) (low : 8 ≤ code) (high : code ≤ 15)
      (need : reportFields code = n) : (8 ≤ (byteAt bytes 1).toNat ∧ (byteAt bytes 1).toNat ≤ 15)
        ∧ bytes.length = 4 + reportFields (byteAt bytes 1).toNat := by
    rw [hc, need]
    omega
  split
  case h_1 hc hn =>
    rw [if_pos (fits hc hn (by decide) (by decide) rfl), at' (by omega)]
    simp only [reportOf, hc, if_true]
  case h_2 hc hn =>
    rw [if_pos (fits hc hn (by decide) (by decide) rfl), word24At, word16At, at' (by omega), at' (by omega), at' (by omega),
      at' (by omega), at' (by omega)]
    simp only [reportOf, hc, reduceIte, Nat.reduceEqDiff]
  case h_3 hc hn =>
    rw [if_pos (fits hc hn (by decide) (by decide) rfl), word24At, word16At, at' (by omega), at' (by omega), at' (by omega),
      at' (by omega), at' (by omega)]
    simp only [reportOf, hc, reduceIte, Nat.reduceEqDiff]
  case h_4 hc hn =>
    rw [if_pos (fits hc hn (by decide) (by decide) rfl), at' (by omega)]
    simp only [reportOf, hc, reduceIte, Nat.reduceEqDiff]
  case h_5 hc hn =>
    rw [if_pos (fits hc hn (by decide) (by decide) rfl)]
    simp only [reportOf, hc, reduceIte, Nat.reduceEqDiff]
  case h_6 hc hn =>
    rw [if_pos (fits hc hn (by decide) (by decide) rfl)]
    simp only [reportOf, hc, reduceIte, Nat.reduceEqDiff]
  case h_7 hc hn =>
    rw [if_pos (fits hc hn (by decide) (by decide) rfl)]
    simp only [reportOf, hc, reduceIte, Nat.reduceEqDiff]
  case h_8 hc hn =>
    rw [if_pos (fits hc hn (by decide) (by decide) rfl)]
    simp only [reportOf, hc, reduceIte, Nat.reduceEqDiff]
  case h_9 done stopped fault probe probeEnd threaded abandoned cut =>
    refine (if_neg fun ⟨⟨low, high⟩, len⟩ => ?_).symm
    have count {n : Nat} (need : reportFields (byteAt bytes 1).toNat = n) : f.length = n := by omega
    obtain hc | hc | hc | hc | hc | hc | hc | hc : (byteAt bytes 1).toNat = 8 ∨ (byteAt bytes 1).toNat = 9
        ∨ (byteAt bytes 1).toNat = 10 ∨ (byteAt bytes 1).toNat = 11 ∨ (byteAt bytes 1).toNat = 12
        ∨ (byteAt bytes 1).toNat = 13 ∨ (byteAt bytes 1).toNat = 14 ∨ (byteAt bytes 1).toNat = 15 := by omega
    · exact done hc (count (by rw [hc]; rfl))
    · exact stopped hc (count (by rw [hc]; rfl))
    · exact fault hc (count (by rw [hc]; rfl))
    · exact probe hc (count (by rw [hc]; rfl))
    · exact probeEnd hc (count (by rw [hc]; rfl))
    · exact threaded hc (count (by rw [hc]; rfl))
    · exact abandoned hc (count (by rw [hc]; rfl))
    · exact cut hc (count (by rw [hc]; rfl))

/-- The tests of R193, one by one. -/
theorem receiveReport_eq_none_iff (bytes : List Byte) :
    receiveReport bytes = none ↔
      (byteAt bytes 0).toNat + 3 ≠ bytes.length
        ∨ bytes.drop (bytes.length - 2) ≠ checkBytes (frameCheck (bytes.take (bytes.length - 2)))
        ∨ (byteAt bytes 1).toNat < 8 ∨ 15 < (byteAt bytes 1).toNat
        ∨ bytes.length ≠ 4 + reportFields (byteAt bytes 1).toNat := by
  by_cases h : sound bytes = true
  case pos =>
    obtain ⟨-, hlen, hcheck⟩ := (sound_iff bytes).mp h
    rw [receiveReport_of_sound h]
    simp only [hlen, hcheck, ne_eq, not_true_eq_false, false_or]
    split
    case isTrue fits => exact iff_of_false nofun (by omega)
    case isFalse unfit => exact iff_of_true rfl (by omega)
  case neg =>
    refine iff_of_true (by simp only [receiveReport, h, Bool.false_eq_true, if_false]) ?_
    by_cases hlen : (byteAt bytes 0).toNat + 3 = bytes.length
    · by_cases hcheck : bytes.drop (bytes.length - 2) = checkBytes (frameCheck (bytes.take (bytes.length - 2)))
      · have short : ¬4 ≤ bytes.length := fun long => h ((sound_iff bytes).mpr ⟨long, hlen, hcheck⟩)
        omega
      · exact .inr (.inl hcheck)
    · exact .inl hlen

theorem receiveReport_eq_some {bytes : List Byte} {r : DriveReport} (h : receiveReport bytes = some r) :
    r = reportOf bytes := by
  by_cases hs : sound bytes = true
  · rw [receiveReport_of_sound hs] at h
    split at h
    · exact (Option.some.inj h).symm
    · cases h
  · simp only [receiveReport, hs, Bool.false_eq_true, if_false] at h
    cases h

end Sys2Proof.Machine
end

section
/-! PROOFS. O44: untrusted reports are drive loss (R59, R63, R116, R193). -/

namespace Sys2Proof.Machine

/-! ## Returned operations (R61) -/

/-- The form a returned operation is issued in takes the same place in a pair. -/
theorem Returned.again_isTool (r : Returned) : r.again.isTool = r.body.isTool := by
  obtain ⟨body, progress⟩ := r
  cases body with
  | move mode => cases mode <;> rfl
  | _ => rfl

theorem Returned.room_again_iff (x : Station) (r : Returned) :
    x.room r.again = true ↔
      x.pair.length < 2 ∧ (∀ o ∈ x.pair, o.body.isTool = false) ∧ (r.body.isTool = true → x.pair = []) := by
  rw [Station.room_iff, r.again_isTool]

/-- Returned operations come before the contour's work and what stands at the head (R61). -/
theorem Works.act_of_returned {w : Works} {st : St} {r : Returned} {rest : List Returned}
    (hs : (w.station st).state = .active) (ha : (w.station st).stopAwaited = false)
    (hr : (w.station st).returned = r :: rest)
    (ht : ∀ id c, (w.station st).current = some id → w.contour? id = some c → c.state ≠ .tailIntake) :
    w.act st = w.reissue st r rest := by
  have intake : w.intakeAct st = none := Works.intakeAct_eq_none fun id c hc =>
    ht id c (Works.current?_eq_some_iff.mp hc).1 (Works.current?_eq_some_iff.mp hc).2
  rw [Works.act_of_active rfl hs, Works.activeAct_of_returned rfl intake ha hr]

/-! ## The station after a drive loss (R63) -/

/-- What a drive loss makes of a station. -/
structure Works.Lost (w : Works) (st : St) (v : Works) : Prop where
  time : v.time = w.time
  linkUp : (v.station st).linkUp = (w.station st).linkUp
  pair : (v.station st).pair = []
  stopAwaited : (v.station st).stopAwaited = false
  wire : (v.station st).wire = .unknown
  place : (v.station st).wirePlace = .nowhere
  working : (w.station st).state = .active ∨ (w.station st).state = .held →
    (v.station st).state = .aborting ∧ (v.station st).teardown = some .driveLost ∧ (v.station st).holds = Holds.none
      ∧ (v.station st).catchWait = none
  aborting : (w.station st).state = .aborting →
    (v.station st).state = .aborting ∧ (v.station st).teardown = (w.station st).teardown

theorem Works.lost_driveLoss (w : Works) (st : St) : w.Lost st (w.driveLoss st) := by
  obtain ⟨time, view, place, state⟩ := Works.adrift_station w st
  simp only [Station.driveView, Prod.mk.injEq] at view
  obtain ⟨pair, wire, link, teardown, stop⟩ := view
  have kept (h : (w.station st).state = .aborting ∨ (w.station st).state = .idle) :
      ((w.adrift st).station st).state = (w.station st).state := by
    refine state.resolve_right fun ⟨working, _⟩ => ?_
    obtain h | h := h <;> rw [Station.working, h] at working <;> exact absurd working (by decide)
  cases hs : (w.station st).state with
  | active | held =>
    have drift : ((w.adrift st).station st).state = .active ∨ ((w.adrift st).station st).state = .held := by
      rw [hs] at state
      exact state.elim (fun same => by rw [same]; simp) fun held => .inr held.2
    obtain ⟨tc, wire', place', rs, lost, here, -, unknown, nowhere⟩ :=
      Works.startTeardown_station (w := w.adrift st) (st := st) (cause := .driveLost)
    rw [Works.driveLoss_of_working drift]
    refine ⟨(Works.startTeardown_frame _ st _).1.trans time, by rw [here]; exact link, by rw [here]; exact pair,
      by rw [here]; simp only [stop, pair]; rfl, by rw [here]; exact unknown wire, by rw [here]; exact nowhere place,
      fun _ => by rw [here]; exact ⟨rfl, rfl, rfl, rfl⟩, fun aborting => absurd (aborting.symm.trans hs) nofun⟩
  | aborting =>
    have drift := (kept (.inl hs)).trans hs
    obtain ⟨tc, wire', place', rs, lost, here, -, unknown, nowhere⟩ := Works.abortIdleEpisode_station (w.adrift st) st
    rw [Works.driveLoss_of_aborting drift]
    refine ⟨(Works.abortIdleEpisode_frame _ st).1.trans time, by rw [here]; exact link, by rw [here]; exact pair,
      by rw [here]; exact stop, by rw [here]; exact unknown wire, by rw [here]; exact nowhere place,
      fun working => absurd working (by rw [hs]; decide), fun _ => by rw [here]; exact ⟨drift, teardown⟩⟩
  | idle =>
    rw [Works.driveLoss_of_idle ((kept (.inr hs)).trans hs)]
    exact ⟨time, link, pair, stop, wire, place, fun working => absurd working (by rw [hs]; decide),
      fun aborting => absurd (aborting.symm.trans hs) nofun⟩

/-- An IDLE station with no break charged does nothing else. -/
theorem Works.driveLoss_of_idle_unbroken {w : Works} {st : St} (hs : (w.station st).state = .idle)
    (hb : (w.station st).breakPending = false) :
    w.driveLoss st = w.upd st fun x =>
      { x with
        pair := [], stopAwaited := false, wire := .unknown, wirePlace := .nowhere, tc := { x.tc with state := .idle } } := by
  have unbroken : ¬((w.upd st fun x =>
      { x with pair := [], stopAwaited := false, wire := .unknown, tc := { x.tc with state := .idle } }).station
        st).breakPending = true := by
    rw [Works.station_upd_same, hb]
    nofun
  have drift : w.adrift st = w.upd st fun x =>
      { x with
        pair := [], stopAwaited := false, wire := .unknown, wirePlace := .nowhere, tc := { x.tc with state := .idle } } := by
    unfold Works.adrift
    extract_lets v
    rw [if_neg unbroken, Works.upd_upd]
  rw [Works.driveLoss_of_idle (by rw [drift, Works.station_upd_same, hs]), drift]

/-! ## Reports that are not to be trusted (R59) -/

section

variable {w : Works} {st : St} {n : Byte}

theorem Works.done_of_untrusted
    (h : ∀ o rest, (w.station st).pair = o :: rest → o.issue ≠ n ∨ o.body.answersDone = false) :
    w.done st n = (w.driveLoss st).settle st := by
  unfold Works.done
  split
  case h_1 o rest hp =>
    refine if_neg fun ⟨issue, answers⟩ => ?_
    exact (h o rest hp).elim (fun other => other issue) fun none => absurd (answers.symm.trans none) nofun
  case h_2 => rfl

theorem Works.stopped_of_untrusted {p : Nat}
    (h : (w.station st).stopAwaited = false ∨ ∀ o rest, (w.station st).pair = o :: rest → o.issue ≠ n) :
    w.stopped st (some n) p = (w.driveLoss st).settle st := by
  cases hp : (w.station st).pair with
  | nil => simp only [Works.stopped, hp]
  | cons o rest =>
    have untrusted : ¬((w.station st).stopAwaited = true ∧ o.issue = n) := fun ⟨awaited, issue⟩ =>
      h.elim (fun still => absurd (awaited.symm.trans still) nofun) fun other => other o rest hp issue
    simp only [Works.stopped, hp, if_neg untrusted]

theorem Works.fault_of_untrusted {p : Nat} {code : Byte}
    (h : ∀ o rest, (w.station st).pair = o :: rest → o.issue ≠ n) :
    w.fault st n p code = (w.driveLoss st).settle st := by
  unfold Works.fault
  split
  case h_1 o rest hp => exact if_neg (h o rest hp)
  case h_2 => rfl

end

/-! ## O44 -/

section

variable {s : State} {st : St} {v : Works}

theorem exec_done {n : Byte} (h : (s.works.linked st true).done st n = v) :
    exec (.done st n) s = .next ({ s with works := v } : State).upstream := by
  rw [← h]
  rfl

theorem exec_stopped {n : Option Byte} {p : BitVec 24} (h : (s.works.linked st true).stopped st n p.toNat = v) :
    exec (.stopped st n p) s = .next ({ s with works := v } : State).upstream := by
  rw [← h]
  rfl

theorem exec_fault {n : Byte} {p : BitVec 24} {code : Byte} (h : (s.works.linked st true).fault st n p.toNat code = v) :
    exec (.fault st n p code) s = .next ({ s with works := v } : State).upstream := by
  rw [← h]
  rfl

end

theorem exec_portLinkDown {s : State} {st : St} {message : Option (List Byte)} (h : message.bind receiveReport = none) :
    exec (.portLinkDown st message) s =
      .next ({ s with works := ((s.works.linked st false).driveLoss st).settle st } : State).upstream := by
  show execPortLinkDown st message s = _
  rw [execPortLinkDown, h]
  rfl

/-- Settles O44: every issue on a port that is DOWN is a drive loss (`Works.act_driveLoss_of_down`), the messages are read by
`receiveReport_of_sound`, and a drive loss leaves what `Works.Lost` lists. -/
theorem untrustedReportsAreDriveLoss : Obligations.UntrustedReportsAreDriveLoss := by
  unfold Obligations.UntrustedReportsAreDriveLoss
  refine ⟨fun w st => ?issues, fun bytes => ⟨receiveReport_eq_none_iff bytes, fun r => receiveReport_eq_some⟩,
    fun s st => ?reports⟩
  case issues =>
    intro x hd
    have lost := Works.driveLoss_lost w st
    refine ⟨fun w1 h hn => ⟨_, Works.act_driveLoss_of_down hd h hn, lost⟩,
      fun r rest hs ha hr short moves tool ht => ⟨_, ?_, lost⟩, fun hs ha hp hw => ⟨_, ?_, lost⟩⟩
    · rw [Works.act_of_returned hs ha hr ht,
        Works.reissue_of_room rfl rest ((r.room_again_iff x).mpr ⟨short, moves, tool⟩), Works.issue_of_down hd]
    · rw [Works.act_of_aborting rfl hs, Works.teardownAct_of_wire rfl hp ha hw, Works.issue_of_down hd]
  case reports =>
    intro x lost
    have of_loss {i : Instr} {up : Bool} (h : exec i s =
        .next ({ s with works := ((s.works.linked st up).driveLoss st).settle st } : State).upstream) : lost i up := by
      have here : (s.works.linked st up).station st = { x with linkUp := up } := Works.station_upd_same _ _ _
      obtain ⟨time, linkUp, pair, stop, wire, place, working, aborting⟩ := Works.lost_driveLoss (s.works.linked st up) st
      rw [here] at linkUp working aborting
      refine ⟨_, h, time, linkUp, pair, stop, wire, place, working, aborting, fun idle unbroken => ?_,
        Works.driveLoss_lost _ st⟩
      rw [Works.driveLoss_of_idle_unbroken (by rw [here]; exact idle) (by rw [here]; exact unbroken), Works.linked,
        Works.upd_upd]
    have up : (s.works.linked st true).station st = { x with linkUp := true } := Works.station_upd_same _ _ _
    refine ⟨fun n h => of_loss ?_, fun n p h => of_loss ?_, fun n p k h => of_loss ?_, of_loss (exec_portLinkDown rfl),
      fun bytes h => of_loss (exec_portLinkDown h)⟩
    · exact exec_done (Works.done_of_untrusted (by rw [up]; exact h))
    · exact exec_stopped (Works.stopped_of_untrusted (by rw [up]; exact h))
    · exact exec_fault (Works.fault_of_untrusted (by rw [up]; exact h))

end Sys2Proof.Machine
end

section
/-! PROOFS. O45: STOPPED and FAULT return the work (R60 to R62, R84, R114 to R116). -/

namespace Sys2Proof.Machine

/-! ## Where the oldest operation left the wire, and where it stood -/

theorem Station.followPlace_eq (x : Station) (body : OpBody) :
    x.followPlace body =
      { x with
        wirePlace :=
          if x.wire = .threaded ∨ x.breakPending = true then
            match body with
            | .move .cut _ _ _ _ => .inCut
            | .move .kerf _ _ _ _ => .inTraverse
            | _ => x.wirePlace
          else x.wirePlace } := by
  have moves (p : WirePlace) : x.setPlace p =
      { x with wirePlace := if x.wire = .threaded ∨ x.breakPending = true then p else x.wirePlace } := by
    unfold Station.setPlace
    split <;> rfl
  have stays : x = { x with
      wirePlace := if x.wire = .threaded ∨ x.breakPending = true then x.wirePlace else x.wirePlace } := by rw [ite_self]
  cases body with
  | move mode =>
    cases mode with
    | cut => exact moves .inCut
    | kerf => exact moves .inTraverse
    | travel => exact stays
  | thread | confirm | abandon | wireCut | dwell => exact stays

theorem OpBody.position_eq (body : OpBody) (p : Nat) :
    (body.ordinal?.map fun k => (k, p)) =
      match body with
      | .move _ _ _ _ (.mainEntry _ k) | .move _ _ _ _ (.tailEntry _ k) | .move _ _ _ _ (.traverse _ k) => some (k, p)
      | _ => none := by
  cases body with
  | move mode direction offset seg work => cases work <;> rfl
  | thread | confirm | abandon | wireCut | dwell => rfl

section

variable {w : Works} {st : St}

/-- The operations end one after another, and then a break that awaited the answer is settled. -/
theorem Works.pairEnds_settled (w : Works) (st : St) (p : Nat) (position : Option (Nat × Nat)) (code : Option Byte) :
    Works.OpsEnd st (w.station st).pair p (w.upd st fun x => { x with pair := [], stopAwaited := false }) (w.pairEnds st p)
      ∧ ((w.station st).breakPending = false → (w.pairEnds st p).settleAwaited st position code = w.pairEnds st p)
      ∧ ((w.station st).breakPending = true →
        (w.pairEnds st p).BreakSettles st position code ((w.pairEnds st p).settleAwaited st position code)) := by
  have pending := Works.pairEnds_breakPending w st p
  refine ⟨Works.pairEnds_ends w st p, fun unbroken => ?_, fun broken => ?_⟩
  · rw [Works.settleAwaited, pending, unbroken, if_neg Bool.false_ne_true]
  · rw [Works.settleAwaited, pending, broken, if_pos rfl]
    exact Works.settleBreak_settles _ _ _ _

/-! ## The reports (R59, R60, R62) -/

theorem Works.stopped_of_oldest {op : Op} {rest : List Op} {p : Nat} (hp : (w.station st).pair = op :: rest)
    (ha : (w.station st).stopAwaited = true) :
    w.stopped st (some op.issue) p =
      (((w.upd st fun x => x.followPlace op.body).pairEnds st p).settleAwaited st (op.body.ordinal?.map fun k => (k, p))
        none).settle st := by
  simp only [Works.stopped, hp, if_pos (And.intro ha trivial)]

theorem Works.stopped_of_none {p : Nat} (ha : (w.station st).stopAwaited = true) :
    w.stopped st none p = ((w.pairEnds st 0).settleAwaited st none none).settle st := by
  simp only [Works.stopped, ha, if_true]

theorem Works.stopped_of_unawaited {p : Nat} (ha : (w.station st).stopAwaited = false) : w.stopped st none p = w := by
  simp only [Works.stopped, ha, Bool.false_eq_true, if_false]

theorem Works.fault_of_oldest {op : Op} {rest : List Op} {p : Nat} {code : Byte} (hp : (w.station st).pair = op :: rest) :
    w.fault st op.issue p code =
      ((((w.upd st fun x => x.followPlace op.body).pairEnds st p).settleAwaited st (op.body.ordinal?.map fun k => (k, p))
        (some code)).addHolds st { driveFault := true } (some code) none).settle st := by
  simp only [Works.fault, hp, if_true]
  rfl

end

/-! ## Issued again (R61) -/

/-- The form in which an operation is issued again. -/
theorem Returned.again_eq (r : Returned) :
    r.again = match r.body with
      | .move .kerf d _ seg work => .move .kerf d r.progress seg work
      | .move .travel d _ seg work => .move .travel d 0 seg work
      | b => b := by
  obtain ⟨body, progress⟩ := r
  cases body with
  | move mode => cases mode <;> rfl
  | thread | confirm | abandon | wireCut | dwell => rfl

/-- The reissue, with an ABANDON taking the controller back to ABANDONING. -/
theorem Works.reissue_of_link {w : Works} {st : St} {r : Returned} {rest : List Returned}
    (h : (w.station st).room r.again = true) (hl : (w.station st).linkUp = true) :
    w.reissue st r rest = some (w.upd st fun x =>
      { x with
        returned := rest
        tc := if r.body = .abandon then { x.tc with state := .abandoning } else x.tc
        pair := x.pair ++ [{ issue := x.nextIssue, body := r.again }], nextIssue := x.nextIssue + 1
        underrunReported := false }) := by
  rw [Works.reissue_of_room rfl rest h, Works.issue_of_up hl, Works.upd_upd]
  refine congrArg some (Works.upd_congr _ _ ?_)
  cases r.body with
  | abandon => rw [if_pos rfl]; rfl
  | move | thread | confirm | wireCut | dwell => rw [if_neg nofun]; rfl

/-- Settles O45: the operations end by `Works.pairEnds_ends`, a charged break by `Works.settleBreak_settles`, and the
returned operations are issued by `Works.reissue`. -/
theorem stoppedAndFaultReturnTheWork : Obligations.StoppedAndFaultReturnTheWork := by
  unfold Obligations.StoppedAndFaultReturnTheWork
  refine ⟨fun s st n p code => ?reports, fun w st r rest => ?again⟩
  case reports =>
    intro x w0 ended settled
    have here : (s.works.linked st true).station st = { x with linkUp := true } := Works.station_upd_same _ _ _
    refine ⟨fun body rest hp => ?_, fun ha => ?_, fun ha => ?_⟩
    · intro place position
      let v := (s.works.linked st true).upd st fun x => x.followPlace body
      have hp' : ((s.works.linked st true).station st).pair = { issue := n, body := body } :: rest := by
        rw [here]
        exact hp
      have follows : v.station st = { x with linkUp := true, wirePlace := place } := by
        rw [Works.station_upd_same, here]
        exact Station.followPlace_eq _ body
      have emptied : (v.upd st fun x => { x with pair := [], stopAwaited := false }) = ended place := by
        rw [Works.upd_upd]
        refine Works.upd_congr _ _ ?_
        rw [here, Station.followPlace_eq] <;> rfl
      have stood : (body.ordinal?.map fun k => (k, p.toNat)) = position := body.position_eq p.toNat
      have answered (code : Option Byte) := Works.pairEnds_settled v st p.toNat position code
      rw [follows, emptied] at answered
      refine ⟨fun ha => ?_, ?_⟩
      · have taken := Works.stopped_of_oldest (p := p.toNat) hp' (by rw [here]; exact ha)
        rw [stood] at taken
        obtain ⟨ends, unbroken, broken⟩ := answered none
        exact ⟨v.pairEnds st p.toNat, _, exec_stopped taken, ends, unbroken, broken⟩
      · have taken := Works.fault_of_oldest (p := p.toNat) (code := code) hp'
        rw [stood] at taken
        obtain ⟨ends, unbroken, broken⟩ := answered (some code)
        exact ⟨v.pairEnds st p.toNat, _, exec_fault taken, ends, unbroken, broken⟩
    · have answered := Works.pairEnds_settled (s.works.linked st true) st 0 none none
      rw [here] at answered
      have emptied : ((s.works.linked st true).upd st fun x => { x with pair := [], stopAwaited := false })
          = ended x.wirePlace := Works.upd_congr _ _ (by rw [here])
      rw [emptied] at answered
      obtain ⟨ends, unbroken, broken⟩ := answered
      exact ⟨_, _, exec_stopped (Works.stopped_of_none (by rw [here]; exact ha)), ends, unbroken, broken⟩
    · exact exec_stopped (Works.stopped_of_unawaited (by rw [here]; exact ha))
  case again =>
    intro x room again hs ha hr hl ht
    have act : w.act st = w.reissue st r rest := Works.act_of_returned hs ha hr ht
    have fits : x.room r.again = true ↔ room := r.room_again_iff x
    refine ⟨fun yes => ?_, fun no => ?_⟩
    · rw [act, Works.reissue_of_link (fits.mpr yes) hl, r.again_eq] <;> rfl
    · rw [act, Works.reissue_of_no_room rfl rest fun yes => no (fits.mp yes)]

end Sys2Proof.Machine
end

section
/-! PROOFS. O43: DONE completes the oldest move (R59, R66, R68, R71 to R73, R75, R76). -/

namespace Sys2Proof.Machine

/-! ## The confirmation a plan requires (R72, R137) -/

theorem Plan.confirmRequired_of_mode (p : Plan) :
    (p.mode = .plain → p.confirmRequired = .plain) ∧ (p.mode = .catcher → p.confirmRequired = .catcher)
      ∧ (p.mode = .pause → p.confirmRequired = .pause) ∧ ∀ t ap cf, p.mode = .tab t ap cf → p.confirmRequired = cf := by
  refine ⟨fun h => ?_, fun h => ?_, fun h => ?_, fun t ap cf h => ?_⟩
  all_goals simp only [Plan.confirmRequired, h]

/-! ## The underrun test (R71) -/

/-- An underrun awaits the contour's next frame: every condition of R71 holds. -/
structure Works.Starves (w : Works) (st : St) (id : Nat) (c : Contour) : Prop where
  active : (w.station st).state = .active
  empty : (w.station st).pair = []
  wire : (w.station st).wire = .threaded
  current : (w.station st).current = some id
  contour : w.contour? id = some c
  cutting : c.state = .cutting
  activity : (w.station st).activity = .cutting
  pending : ∀ e ∈ c.kerf, e.state ≠ .pending
  tab : c.plan.tabOrdinal? ≠ some (c.h + 1)
  head : ∀ e, (w.station st).adm.queue.head? = some e → e.contour ≠ id

theorem Works.underrunOrdinal_of_starves {w : Works} {st : St} {id : Nat} {c : Contour} (h : w.Starves st id c) :
    w.underrunOrdinal st = some (id, c.h + 1) := by
  have head : ((w.station st).adm.queue.head?.all fun e => e.contour != id) = true := by
    rw [Option.all_eq_true]
    exact fun e he => bne_iff_ne.mpr (h.head e he)
  simp only [Works.underrunOrdinal, Works.current?_of_record h.current h.contour]
  exact if_pos ⟨h.active, h.empty, h.wire, h.cutting, h.activity, c.lowestPending_eq_none_iff.mpr h.pending,
    c.atTab_eq_false_iff.mpr h.tab, head⟩

theorem Works.starves_of_underrunOrdinal {w : Works} {st : St} {p : Nat × Nat} (h : w.underrunOrdinal st = some p) :
    ∃ c, w.Starves st p.1 c := by
  unfold Works.underrunOrdinal at h
  extract_lets x at h
  split at h
  case h_1 => cases h
  case h_2 id c hc =>
    split at h
    case isFalse => cases h
    case isTrue all =>
      cases h
      obtain ⟨active, empty, wire, cutting, activity, pending, tab, head⟩ := all
      obtain ⟨current, contour⟩ := Works.current?_eq_some_iff.mp hc
      rw [Option.all_eq_true] at head
      exact ⟨c, active, empty, wire, current, contour, cutting, activity, c.lowestPending_eq_none_iff.mp pending,
        c.atTab_eq_false_iff.mp tab, fun e he => bne_iff_ne.mp (head e he)⟩

theorem Works.underrun_of_starves {w : Works} {st : St} {id : Nat} {c : Contour} {p : Program} (h : w.Starves st id c)
    (hp : (w.station st).adm.program = some p) (hr : (w.station st).underrunReported = false) :
    w.underrun st = (w.report st (.underrun id (c.h + 1) p.consumed)).upd st fun x => { x with underrunReported := true } := by
  simp only [Works.underrun, Works.underrunOrdinal_of_starves h, hp, hr, Bool.false_eq_true, if_false]

theorem Works.underrun_of_other {w : Works} {st : St}
    (h : (∀ id c p, w.Starves st id c → (w.station st).adm.program ≠ some p) ∨ (w.station st).underrunReported = true) :
    w.underrun st = w := by
  unfold Works.underrun
  split
  case h_1 id k p ho hp =>
    obtain ⟨c, starves⟩ := Works.starves_of_underrunOrdinal ho
    obtain fed | reported := h
    · exact absurd hp (fed id c p starves)
    · exact if_pos reported
  case h_2 => rfl

/-! ## DONE, by the oldest operation -/

theorem Works.done_of_oldest {w : Works} {st : St} {op : Op} {rest : List Op} (hp : (w.station st).pair = op :: rest)
    (ha : op.body.answersDone = true) :
    w.done st op.issue =
      if rest = [] then (((w.upd st fun x => { x with pair := rest }).opDone st op.body).settle st).underrun st
      else ((w.upd st fun x => { x with pair := rest }).opDone st op.body).settle st := by
  simp only [Works.done, hp, if_pos (And.intro trivial ha)]

/-- What a MARK report makes of its station, if there is a mark. -/
theorem Works.markReport?_station (w : Works) (st : St) (m : Option MarkRef) (o : MarkOutcome) :
    ∃ adm rs lost, (w.markReport? st m o).station st = { w.station st with adm := adm, reports := rs, lost := lost }
      ∧ (m = none → adm = (w.station st).adm ∧ rs = (w.station st).reports)
      ∧ ∀ m', m = some m' → adm = (w.station st).adm.release m'.handle
        ∧ ((w.station st).reports.length < 32 →
          rs = (w.station st).reports ++ [{ stamp := w.time, body := .mark m'.handle m'.seq m'.contour o }]) := by
  cases m with
  | none => exact ⟨_, _, _, rfl, fun _ => ⟨rfl, rfl⟩, nofun⟩
  | some m =>
    obtain ⟨rs, lost, hs⟩ := Works.report_station w st (.mark m.handle m.seq m.contour o)
    have here : (w.markReport? st (some m) o).station st =
        { w.station st with adm := (w.station st).adm.release m.handle, reports := rs, lost := lost } := by
      rw [Works.markReport?_some, Works.markReport, Works.station_upd_same, hs]
    refine ⟨_, rs, lost, here, nofun, fun m' hm => ?_⟩
    cases hm
    refine ⟨rfl, fun room => ?_⟩
    have joined := congrArg (fun w : Works => (w.station st).reports)
      (Works.report_of_room (w := w) (.mark m.handle m.seq m.contour o) room)
    rw [Works.station_upd_same] at joined
    exact (congrArg Station.reports hs).symm.trans joined

theorem Works.OnlyStation.markReport? {w v : Works} {st : St} (h : w.OnlyStation st v) {m : Option MarkRef}
    {o : MarkOutcome} : w.OnlyStation st (v.markReport? st m o) := by
  cases m with
  | none => exact h
  | some m => exact h.report.upd

/-! ### A main-pass move (R68, R72) -/

/-- The record of a contour whose entry of ordinal `k` has become CUT. -/
def Contour.entryCut (c : Contour) (k : Nat) : Contour :=
  { c with
    kerf := c.kerf.map fun f => if f.ordinal = k then { f with state := .cut, handle := none } else f
    prog := { c.prog with cursor := c.prog.cursor + 1 } }

theorem Contour.entryCut_entry? {c : Contour} {k : Nat} {e : KerfEntry} (h : c.entry? k = some e) :
    (c.entryCut k).entry? k = some { e with state := .cut, handle := none } := by
  have mapped := c.entry?_map k (fun f => if f.ordinal = k then { f with state := .cut, handle := none } else f)
    fun f => by split <;> rfl
  rw [h, Option.map_some, if_pos (Contour.entry?_ordinal h)] at mapped
  exact mapped

section

variable {w : Works} {st : St} {id k : Nat} {c : Contour} {e : KerfEntry} (hc : w.contour? id = some c)
  (he : c.entry? k = some e)

/-- The works with the entry CUT and its mark reported. -/
def Works.entryDone (w : Works) (st : St) (id k : Nat) (e : KerfEntry) : Works :=
  (w.modContour id fun c => c.entryCut k).markReport? st
    (e.handle.map fun h => { handle := h, seq := e.seq, contour := id }) .done

include hc he

theorem Works.entryCut_of_more (hk : k ≠ c.cfg.segments) : w.entryCut st id k = w.entryDone st id k e :=
  (Works.entryCut_counts hc he).2 hk

/-- The last entry of a main pass begins the closing. -/
theorem Works.entryCut_of_last (hk : k = c.cfg.segments) : (w.entryDone st id k e).ClosingBegins st id c (w.entryCut st id k) :=
  (Works.entryCut_counts hc he).1 hk

end

end Sys2Proof.Machine
end

section
/-! PROOFS. O43: DONE completes the oldest move, its statement. -/

namespace Sys2Proof.Machine

/-! ### What a counted entry leaves -/

theorem Station.inPass_of_no_pass {x : Station} (h : x.pass = none) (id : Nat) : x.inPass id = false := by
  rw [Station.inPass, h, Option.any_none]

section

variable {w : Works} {st : St} {id k : Nat} {c : Contour} {e : KerfEntry}

/-- The station whose main pass of the contour's plan has begun its closing (R72, R73). -/
def Station.closingBegun (x : Station) (c : Contour) (now : Time) : Station :=
  { x with
    closing := some
      { cutReceived := false, required := c.plan.confirmRequired, satisfied := decide (c.plan.confirmRequired = .plain) }
    catchWait :=
      if c.plan.confirmRequired = .catcher ∧ x.state ≠ .aborting then
        some (now + BitVec.ofNat 32 (c.plan.timeout * 100000))
      else none
    activity := .closing }

theorem Works.entryDone_onlyStation : (w.modContour id fun c => c.entryCut k).OnlyStation st (w.entryDone st id k e) :=
  (Works.OnlyStation.refl _ st).markReport?

theorem Works.entryDone_contour?_same (hc : w.contour? id = some c) : (w.entryDone st id k e).contour? id = some (c.entryCut k) := by
  rw [Works.entryDone_onlyStation.contour?, Works.contour?_modContour_same, hc, Option.map_some]

theorem Works.entryDone_contour?_other {j : Nat} (hj : j ≠ id) : (w.entryDone st id k e).contour? j = w.contour? j := by
  rw [Works.entryDone_onlyStation.contour?, Works.contour?_modContour_other w id j _ hj]

/-- The station of a counted entry: the mark's report, and the closing that its last entry begins. -/
theorem Works.entryCut_station (hc : w.contour? id = some c) (he : c.entry? k = some e) (hp : (w.station st).pass = none) :
    ∃ adm rs lost closing catchWait activity,
      (w.entryCut st id k).station st =
          { w.station st with
            adm := adm, reports := rs, lost := lost, closing := closing, catchWait := catchWait, activity := activity }
        ∧ (e.handle = none → adm = (w.station st).adm ∧ rs = (w.station st).reports)
        ∧ (∀ h, e.handle = some h → adm = (w.station st).adm.release h
          ∧ ((w.station st).reports.length < 32 →
            rs = (w.station st).reports ++ [{ stamp := w.time, body := .mark h e.seq id .done }]))
        ∧ (k ≠ c.cfg.segments → closing = (w.station st).closing ∧ activity = (w.station st).activity
          ∧ catchWait = (w.station st).catchWait)
        ∧ (k = c.cfg.segments → activity = .closing
          ∧ closing = some
              { cutReceived := false, required := c.plan.confirmRequired
                satisfied := decide (c.plan.confirmRequired = .plain) }
          ∧ catchWait =
            if c.plan.confirmRequired = .catcher ∧ (w.station st).state ≠ .aborting then
              some (w.time + BitVec.ofNat 32 (c.plan.timeout * 100000))
            else none) := by
  obtain ⟨adm, rs, lost, done, bare, named⟩ := Works.markReport?_station (w.modContour id fun c => c.entryCut k) st
    (e.handle.map fun h => { handle := h, seq := e.seq, contour := id }) .done
  have unmarked (h : e.handle = none) : adm = (w.station st).adm ∧ rs = (w.station st).reports := bare (by rw [h]; rfl)
  have marked (h : Fin 8) (hh : e.handle = some h) := named { handle := h, seq := e.seq, contour := id } (by rw [hh]; rfl)
  by_cases hk : k = c.cfg.segments
  · have outside : ((w.entryDone st id k e).station st).inPass id = false := by
      rw [Works.entryDone, done]
      exact Station.inPass_of_no_pass hp id
    have begun := Works.entryCut_of_last (st := st) hc he hk
    unfold Works.ClosingBegins at begun
    rw [outside] at begun
    refine ⟨adm, rs, lost, _, _, _, ?_, unmarked, marked, fun hn => absurd hk hn, fun _ => ⟨rfl, rfl, rfl⟩⟩
    rw [begun, Works.station_upd_same]
    refine (congrArg (Station.closingBegun · c (w.entryDone st id k e).time) done).trans ?_
    rw [Works.entryDone_onlyStation.time]
    rfl
  · refine ⟨adm, rs, lost, _, _, _, ?_, unmarked, marked, fun _ => ⟨rfl, rfl, rfl⟩, fun h => absurd h hk⟩
    rw [Works.entryCut_of_more hc he hk]
    exact done

/-- Everything else: only the contour's record and the station change. -/
theorem Works.entryCut_frame (hc : w.contour? id = some c) (he : c.entry? k = some e) :
    (w.entryCut st id k).time = w.time ∧ (w.entryCut st id k).pool = w.pool
      ∧ (∀ j ≠ st, (w.entryCut st id k).station j = w.station j)
      ∧ (∀ j ≠ id, (w.entryCut st id k).contour? j = w.contour? j)
      ∧ (w.entryCut st id k).contour? id = some
        { c.entryCut k with
          state := if k = c.cfg.segments then .closing else c.state
          mainEnded := if k = c.cfg.segments then true else c.mainEnded } := by
  obtain ⟨time, pool, contours, other⟩ := Works.entryDone_onlyStation (w := w) (st := st) (id := id) (k := k) (e := e)
  by_cases hk : k = c.cfg.segments
  · have begun := Works.entryCut_of_last (st := st) hc he hk
    unfold Works.ClosingBegins at begun
    rw [begun, if_pos hk, if_pos hk]
    refine ⟨time, pool, fun j hj => ?_, fun j hj => ?_, ?_⟩
    · rw [Works.station_upd_other _ _ _ _ hj]
      exact other j hj
    · rw [Works.contour?_upd, Works.contour?_modContour_other _ _ _ _ hj, Works.entryDone_contour?_other hj]
    · rw [Works.contour?_upd, Works.contour?_modContour_same, Works.entryDone_contour?_same hc, Option.map_some]
  · rw [Works.entryCut_of_more hc he hk, if_neg hk, if_neg hk]
    exact ⟨time, pool, other, fun j hj => Works.entryDone_contour?_other hj, Works.entryDone_contour?_same hc⟩

end

/-- A directive ends: its mark is reported DONE, and with no operation left its activity ends (R75, R76). -/
theorem Works.directiveDone_eq {w : Works} {st : St} {mark : Option MarkRef} {rest : List Op}
    (hp : (w.station st).pair = rest) :
    w.directiveDone st mark = (w.markReport? st mark .done).upd st fun x =>
      { x with
        directiveMarks := x.directiveMarks.filter fun m => decide (mark ≠ some m)
        activity := if rest = [] then .waiting else x.activity } := by
  have others (marks : List MarkRef) : (marks.filter fun m => !(mark == some m)) = marks.filter fun m => decide (mark ≠ some m) :=
    List.filter_congr fun m _ => by
      rw [decide_not, Bool.eq_iff_iff.mpr (beq_iff_eq.trans decide_eq_true_iff.symm)]
  obtain ⟨adm, rs, lost, reported, -⟩ := w.markReport?_station st mark .done
  refine Works.upd_congr _ _ ?_
  rw [others, reported, hp]

/-! ### The statement -/

/-- DONE names the oldest move or dwell: what it ran is completed, and the sequencer goes on. -/
theorem exec_done_of_oldest {s : State} {st : St} {n : Byte} {body : OpBody} {rest : List Op}
    (hp : (s.works.station st).pair = { issue := n, body := body } :: rest) (ha : body.answersDone = true) {w1 : Works}
    (h : ((s.works.linked st true).upd st fun x => { x with pair := rest }).opDone st body = w1) :
    exec (.done st n) s =
      .next ({ s with works := if rest = [] then (w1.settle st).underrun st else w1.settle st } : State).upstream := by
  have hp' : ((s.works.linked st true).station st).pair = { issue := n, body := body } :: rest := by
    rw [Works.linked_station]
    exact hp
  exact exec_done (by rw [Works.done_of_oldest hp' ha, h])

/-- Settles O43: the completions are `Works.opDone`'s by the work the operation ran, the first clause read off
`Works.entryCut`, the underrun test by what it awaits. -/
theorem doneCompletesTheOldestMove : Obligations.DoneCompletesTheOldestMove := by
  unfold Obligations.DoneCompletesTheOldestMove
  refine ⟨Plan.confirmRequired_of_mode, fun w st => ?underrun, fun s st n => ?done⟩
  case underrun =>
    intro x waits
    have starved {id c p} (h : waits id c p) : w.Starves st id c ∧ (w.station st).adm.program = some p := by
      obtain ⟨active, empty, wire, current, contour, cutting, activity, pending, tab, head, program⟩ := h
      exact ⟨⟨active, empty, wire, current, contour, cutting, activity, pending, tab, head⟩, program⟩
    refine ⟨fun id c p h fresh => ?_, fun h => Works.underrun_of_other (h.imp_left fun none id c p starves program => ?_)⟩
    · obtain ⟨starves, program⟩ := starved h
      exact Works.underrun_of_starves starves program fresh
    · exact none id c p ⟨starves.active, starves.empty, starves.wire, starves.current, starves.contour, starves.cutting,
        starves.activity, starves.pending, starves.tab, starves.head, program⟩
  case done =>
    intro x w0
    have here : w0.station st = { x with linkUp := true } := Works.station_upd_same _ _ _
    let base : List Op → OpBody → Works := fun rest body =>
      w0.upd st fun x => { x with pair := rest, wirePlace := (Station.followPlace x body).wirePlace }
    have leaves (rest : List Op) (body : OpBody) :
        ((w0.upd st fun x => { x with pair := rest }).upd st fun x => x.followPlace body) = base rest body := by
      rw [Works.upd_upd]
      refine Works.upd_congr _ _ ?_
      rw [Station.followPlace_eq, Station.followPlace_eq]
    refine ⟨fun d off seg id k rest c e hp hc he pass wire => ?first, fun ms mark hp => ?dwell, fun body rest hp => ?rest⟩
    case first =>
      let v := base rest (.move .cut d off seg (.mainEntry id k))
      have stands : v.station st = { x with linkUp := true, pair := rest, wirePlace := .inCut } := by
        rw [Works.station_upd_same, here, Station.followPlace_eq, if_pos (Or.inl wire)]
      obtain ⟨adm, rs, lost, closing, catchWait, activity, done, unmarked, marked, more, last⟩ :=
        Works.entryCut_station (w := v) (st := st) hc he (by rw [stands]; exact pass)
      obtain ⟨time, pool, other, others, record⟩ := Works.entryCut_frame (w := v) (st := st) hc he
      rw [stands] at done unmarked marked more last
      refine ⟨v.entryCut st id k, _, exec_done_of_oldest hp rfl ?_, time, pool, fun j hj => ?_, others, record, rfl,
        Contour.entryCut_entry? he, rfl, ?_⟩
      · exact congrArg (Works.entryCut · st id k) (leaves rest _)
      · exact (other j hj).trans ((Works.station_upd_other _ _ _ _ hj).trans (Works.station_upd_other _ _ _ _ hj))
      · rw [done]
        exact ⟨rfl, rfl, wire, fun h hh => congrArg Admission.handles (marked h hh).1, unmarked,
          fun h hh => (marked h hh).2, more, last⟩
    case dwell =>
      let v := w0.upd st fun x => { x with pair := [] }
      have emptied : (v.station st).pair = [] := congrArg Station.pair (Works.station_upd_same _ _ _)
      have left : (v.upd st fun x => x.followPlace (.dwell ms mark)) = v := Works.upd_self _ _ rfl
      have done := Works.directiveDone_eq (mark := mark) emptied
      obtain ⟨adm, rs, lost, reported, -⟩ := v.markReport?_station st mark .done
      refine ⟨v.directiveDone st mark, exec_done_of_oldest hp rfl (congrArg (Works.directiveDone · st mark) left), rfl, ?_⟩
      rw [done, Works.station_upd_same, reported]
      exact ⟨rfl, emptied, Works.markReport?_contours _ _ _ _⟩
    case rest =>
      intro place bare after
      have left (m : MoveMode) (d : Direction) (off : Nat) (seg : Segment) (work : MoveWork) :
          ((w0.upd st fun x => { x with pair := rest }).upd st fun x => x.followPlace (.move m d off seg work)) = bare m := by
        refine (leaves rest _).trans (Works.upd_congr _ _ ?_)
        rw [here, Station.followPlace_eq]
        cases m <;> rfl
      refine ⟨?main, ?tail, ?traverse, ?entry, ?pass, ?recovery, ?directive⟩
      case main =>
        intro m d off seg id k c e hb hc he
        subst hb
        exact ⟨_, exec_done_of_oldest hp rfl (congrArg (Works.entryCut · st id k) (left m d off seg _)),
          Works.entryCut_counts hc he⟩
      case tail =>
        intro m d off seg id k c e hb hc he
        subst hb
        exact ⟨_, exec_done_of_oldest hp rfl (congrArg (Works.tailCut · st id k) (left m d off seg _)),
          Works.tailCut_counts hc he⟩
      case traverse =>
        intro m d off seg id k hb
        subst hb
        exact exec_done_of_oldest hp rfl (left m d off seg _)
      case entry =>
        intro m d off seg hb
        subst hb
        exact exec_done_of_oldest hp rfl
          (congrArg (Works.upd · st fun x => { x with activity := .threading }) (left m d off seg _))
      case pass =>
        intro m d off seg hb
        subst hb
        exact exec_done_of_oldest hp rfl
          (congrArg (Works.modPass · st fun p => { p with step := .threading }) (left m d off seg _))
      case recovery =>
        intro m d off seg hb
        subst hb
        exact exec_done_of_oldest hp rfl
          (congrArg (Works.modRecovery · st fun r => { r with step := .startHole }) (left m d off seg _))
      case directive =>
        intro mark hb
        have kept : ((bare .travel).station st).pair = rest := congrArg Station.pair (Works.station_upd_same _ _ _)
        obtain ⟨ms, rfl⟩ | ⟨d, off, seg, rfl⟩ := hb
        · have still := (leaves rest (.dwell ms mark)).trans (Works.upd_congr _ _ (g := fun x =>
            { x with pair := rest, wirePlace := place .travel }) (by rw [here, Station.followPlace_eq]))
          exact exec_done_of_oldest hp rfl
            ((congrArg (Works.directiveDone · st mark) still).trans (Works.directiveDone_eq kept))
        · exact exec_done_of_oldest hp rfl
            ((congrArg (Works.directiveDone · st mark) (left .travel d off seg _)).trans (Works.directiveDone_eq kept))

end Sys2Proof.Machine
end

section
/-! PROOFS. O39: a BREAK edge acts by the wire state (R101, R113 to R120). -/

namespace Sys2Proof.Machine

/-! ## The operations a break concerns (R115, R116) -/

theorem OpBody.isCutOrKerf_iff (b : OpBody) :
    b.isCutOrKerf = true ↔ ∃ m d off seg work, b = .move m d off seg work ∧ (m = .cut ∨ m = .kerf) := by
  constructor
  · intro h
    cases b with
    | move m d off seg work =>
      refine ⟨m, d, off, seg, work, rfl, ?_⟩
      cases m with
      | cut => exact .inl rfl
      | kerf => exact .inr rfl
      | travel => cases h
    | thread | confirm | abandon | wireCut | dwell => cases h
  · rintro ⟨m, d, off, seg, work, rfl, rfl | rfl⟩ <;> rfl

theorem OpBody.isBrokenWork_iff (b : OpBody) :
    b.isBrokenWork = true ↔ ∃ m d off seg work, b = .move m d off seg work ∧ (m = .kerf ∨ m = .travel) := by
  constructor
  · intro h
    cases b with
    | move m d off seg work =>
      refine ⟨m, d, off, seg, work, rfl, ?_⟩
      cases m with
      | cut => cases h
      | kerf => exact .inl rfl
      | travel => exact .inr rfl
    | thread | confirm | abandon | wireCut | dwell => cases h
  · rintro ⟨m, d, off, seg, work, rfl, rfl | rfl⟩ <;> rfl

/-! ## The cut boundary (R117) -/

section

variable {c : Contour} {e : KerfEntry}

theorem Contour.mainBoundary_of_entry (h : c.prog.cursor + 1 ≤ c.lastMain) (he : c.entry? (c.prog.cursor + 1) = some e)
    (hm : e.isMain = true) : c.mainBoundary = (c.prog.cursor + 1, e.progress) := by
  simp only [Contour.mainBoundary, Nat.min_eq_left h, he, if_pos (Nat.lt_of_succ_le h), if_pos hm]

theorem Contour.mainBoundary_of_missing (h : c.prog.cursor + 1 ≤ c.lastMain) (he : c.entry? (c.prog.cursor + 1) = none) :
    c.mainBoundary = (c.prog.cursor + 1, 0) := by
  simp only [Contour.mainBoundary, Nat.min_eq_left h, he]

theorem Contour.mainBoundary_of_all_cut (h : c.lastMain < c.prog.cursor + 1) (he : c.entry? c.lastMain = some e) :
    c.mainBoundary = (c.lastMain, e.seg.length) := by
  simp only [Contour.mainBoundary, Nat.min_eq_right (Nat.le_of_lt h), he, if_neg (Nat.not_lt.mpr (Nat.lt_succ_iff.mp h))]

theorem Contour.tailBoundary_of_first {approach : Direction} {before after : List KerfEntry}
    (h : c.tailOrder approach = before ++ e :: after) (hb : ∀ b ∈ before, b.state = .tailCut) (he : e.state ≠ .tailCut) :
    c.tailBoundary approach = (e.ordinal, e.progress) := by
  have found : (c.tailOrder approach).find? (fun e => e.state != .tailCut) = some e :=
    List.find?_eq_some_iff_append.mpr
      ⟨bne_iff_ne.mpr he, before, after, h, fun b hm => by rw [hb b hm]; rfl⟩
  simp only [Contour.tailBoundary, found]

theorem Contour.tailBoundary_of_all_cut {approach : Direction} {before : List KerfEntry}
    (h : c.tailOrder approach = before ++ [e]) (hb : ∀ b ∈ before, b.state = .tailCut) (he : e.state = .tailCut) :
    c.tailBoundary approach = (e.ordinal, e.seg.length) := by
  have none_left : (c.tailOrder approach).find? (fun e => e.state != .tailCut) = none := by
    rw [List.find?_eq_none, h]
    intro b hm
    obtain hm | hm := List.mem_append.mp hm
    · rw [hb b hm]
      nofun
    · rw [List.mem_singleton.mp hm, he]
      nofun
  have last : (c.tailOrder approach).getLast? = some e := by rw [h, List.getLast?_concat]
  simp only [Contour.tailBoundary, none_left, last]

end

theorem KerfState.isTail_eq (s : KerfState) : s.isTail = decide (s = .tail ∨ s = .tailIssued ∨ s = .tailCut) := by
  cases s <;> decide

/-- The tail entries of an approach, in its order. -/
theorem Contour.tailOrder_eq (c : Contour) (approach : Direction) :
    let tail := c.kerf.filter fun e => decide (e.state = .tail ∨ e.state = .tailIssued ∨ e.state = .tailCut)
    (if approach = .forward then tail else tail.reverse) = c.tailOrder approach := by
  simp only [← KerfState.isTail_eq]
  cases approach with
  | forward => exact if_pos rfl
  | reverse => exact if_neg nofun

/-! ## The edge by wire and station (R101, R113) -/

section

variable {w : Works} {st : St}

theorem Works.breakEdge_of_not_threaded (h : (w.station st).wire ≠ .threaded) : w.breakEdge st = w.breakInEpisode st := by
  unfold Works.breakEdge
  extract_lets x
  split
  case h_1 threaded => exact absurd threaded h
  all_goals rfl

theorem Works.breakEdge_of_aborting (hw : (w.station st).wire = .threaded) (hs : (w.station st).state = .aborting) :
    w.breakEdge st = w.upd st fun x => x.setWire .broken := by
  simp only [Works.breakEdge, hw, hs]

theorem Works.breakEdge_of_working (hw : (w.station st).wire = .threaded)
    (hs : (w.station st).state = .active ∨ (w.station st).state = .held) : w.breakEdge st = w.chargeBreak st := by
  obtain hs | hs := hs
  all_goals simp only [Works.breakEdge, hw, hs]

theorem Works.breakInEpisode_of_none (h : (w.station st).tc.episode = none) : w.breakInEpisode st = w := by
  simp only [Works.breakInEpisode, h]

section

variable {e : Episode} (h : (w.station st).tc.episode = some e)

include h

theorem Works.breakInEpisode_of_quiet (hs : (w.station st).tc.state = .idle ∨ (w.station st).tc.state = .abandoning
    ∨ ((w.station st).tc.state = .feeding ∧ e.broken = true)) : w.breakInEpisode st = w := by
  obtain hs | hs | ⟨hs, hb⟩ := hs
  · simp only [Works.breakInEpisode, h, hs]
  · simp only [Works.breakInEpisode, h, hs]
  · simp only [Works.breakInEpisode, h, hs, if_pos hb]

theorem Works.breakInEpisode_of_feeding (hs : (w.station st).tc.state = .feeding) (hb : e.broken = false) :
    w.breakInEpisode st = w.upd st fun x =>
      { x with tc := { x.tc with episode := some { e with broken := true, attempts := e.attempts + 1 } } } := by
  rw [← Works.modEpisode_of_record h fun e => { e with broken := true, attempts := e.attempts + 1 }]
  simp only [Works.breakInEpisode, h, hs, hb, Bool.false_eq_true, if_false]

theorem Works.breakInEpisode_of_locked (hs : (w.station st).tc.state = .locked) :
    w.breakInEpisode st = w.upd st fun x =>
      { x with tc := { x.tc with episode := some { e with lockoutPending := true } } } := by
  rw [← Works.modEpisode_of_record h fun e => { e with lockoutPending := true }]
  simp only [Works.breakInEpisode, h, hs]

end

/-- The station whose break is charged (R113). -/
def Works.broken (w : Works) (st : St) : Works := w.upd st fun x => { x with wire := .broken, breakPending := true }

/-- With a CUT or KERF move outstanding the break waits for the answer to a STOP. -/
theorem Works.chargeBreak_of_cutting (h : ∃ o ∈ (w.station st).pair, o.body.isCutOrKerf = true) :
    w.chargeBreak st = w.upd st fun x => { x with wire := .broken, breakPending := true, stopAwaited := true } := by
  have stoppable : (w.station st).pair.any (fun o => o.body.stoppable) = true := by
    obtain ⟨o, mem, cut⟩ := h
    obtain ⟨m, d, off, seg, work, hb, -⟩ := o.body.isCutOrKerf_iff.mp cut
    exact List.any_eq_true.mpr ⟨o, mem, by rw [hb]; rfl⟩
  refine (if_pos (List.any_eq_true.mpr h)).trans ?_
  rw [Works.upd_upd]
  exact Works.upd_congr _ _ (if_pos stoppable)

/-- Without one it is settled at once. -/
theorem Works.chargeBreak_of_still (h : ∀ o ∈ (w.station st).pair, o.body.isCutOrKerf = false) :
    w.chargeBreak st = ((w.broken st).settleBreak st none none).settle st :=
  if_neg fun any => by
    obtain ⟨o, mem, cut⟩ := List.any_eq_true.mp any
    exact absurd (cut.symm.trans (h o mem)) nofun

end

/-! ## The settlement within the break limit (R116 to R120) -/

theorem Notices.flag_of_raise {n : Nat} (hn : n < 16) (u : Notices) : (u.raise n).flags.getLsbD n = true := by
  by_cases h : u.flags.getLsbD n = true
  · rw [Notices.raise_of_set h]
    exact h
  · rw [Notices.raise_of_clear (Bool.eq_false_iff.mpr h), BitVec.getLsbD_or, getLsbD_bit16 hn, decide_eq_true rfl,
      Bool.or_true]

section

variable {w w' : Works} {st : St} {id : Nat} {c : Contour} (hi : (w.station st).current = some id)
  (hc : w.contour? id = some c) (hp : (w.station st).pass = none) (hl : c.prog.breaks < c.cfg.breakLimit)

/-- The contour with this break count. -/
def Contour.withBreaks (c : Contour) (n : Nat) : Contour := { c with prog := { c.prog with breaks := n } }

/-- The report of a break in a main pass that has not reached the break limit. -/
def Contour.breakReport (c : Contour) (id : Nat) (place : WirePlace) : ReportBody :=
  .wireBreak id .main place c.mainBoundary c.mainBoundary (c.prog.breaks + 1) false

/-- The settled break: counted, reported, noticed and to be recovered from. -/
def Works.breakSettled (w : Works) (st : St) (id : Nat) (c : Contour) : Works :=
  (((w.upd st fun x =>
      { x with
        breakPending := false, wirePlace := .nowhere
        returned := x.returned.filter fun r => !r.body.isBrokenWork }).modContour id (·.withBreaks (c.prog.breaks + 1))).report st
    (c.breakReport id (w.station st).wirePlace)).raise flagWireBreak |>.upd st fun x =>
      { x with recovery := some (Recovery.fresh id .main (w.station st).wirePlace) }

include hi hc hp hl in
theorem Works.BreakSettles.eq_of_within_limit (h : w.BreakSettles st none none w') : w' = w.breakSettled st id c := by
  obtain ⟨-, counted⟩ := h
  have settled := (counted id c hi hc).1 (.inl hl)
  have boundary : w.boundary st id c = c.mainBoundary := by
    rw [Works.boundary, Works.tailWork_of_not_inPass (Station.inPass_of_no_pass hp id)]
  rw [Station.inPass_of_no_pass hp, boundary, decide_eq_false (Nat.not_lt.mpr hl)] at settled
  exact settled

/-- The station of the settled break. -/
theorem Works.breakSettled_station (w : Works) (st : St) (id : Nat) (c : Contour) :
    ∃ rs lost, (w.breakSettled st id c).station st =
        { w.station st with
          breakPending := false, wirePlace := .nowhere
          returned := (w.station st).returned.filter fun r => !r.body.isBrokenWork, reports := rs, lost := lost
          recovery := some (Recovery.fresh id .main (w.station st).wirePlace) }
      ∧ ((w.station st).reports.length < 32 →
        rs = (w.station st).reports ++ [{ stamp := w.time, body := c.breakReport id (w.station st).wirePlace }]) := by
  let v := (w.upd st fun x =>
      { x with
        breakPending := false, wirePlace := .nowhere
        returned := x.returned.filter fun r => !r.body.isBrokenWork }).modContour id (·.withBreaks (c.prog.breaks + 1))
  obtain ⟨rs, lost, reported⟩ := v.report_station st (c.breakReport id (w.station st).wirePlace)
  have here : v.station st = { w.station st with
        breakPending := false, wirePlace := .nowhere
        returned := (w.station st).returned.filter fun r => !r.body.isBrokenWork } := Works.station_upd_same _ _ _
  refine ⟨rs, lost, ?_, fun room => ?_⟩
  · refine (Works.station_upd_same _ _ _).trans ?_
    rw [Works.raise_station, reported, here]
  · have room' : (v.station st).reports.length < 32 := by
      rw [here]
      exact room
    have joined := congrArg (fun u : Works => (u.station st).reports)
      (Works.report_of_room (c.breakReport id (w.station st).wirePlace) room')
    simp only [reported, Works.station_upd_same, here] at joined
    exact joined

/-- What the settled break leaves unchanged beside the station. -/
theorem Works.breakSettled_frame (hc : w.contour? id = some c) :
    (w.breakSettled st id c).time = w.time ∧ (w.breakSettled st id c).pool = w.pool
      ∧ (∀ j ≠ st, (w.breakSettled st id c).station j = w.station j)
      ∧ (∀ j ≠ id, (w.breakSettled st id c).contour? j = w.contour? j)
      ∧ (w.breakSettled st id c).contour? id = some (c.withBreaks (c.prog.breaks + 1))
      ∧ (w.breakSettled st id c).notices.flags.getLsbD flagWireBreak = true := by
  let v := (w.upd st fun x =>
      { x with
        breakPending := false, wirePlace := .nowhere
        returned := x.returned.filter fun r => !r.body.isBrokenWork }).modContour id (·.withBreaks (c.prog.breaks + 1))
  obtain ⟨time, pool, contours, other⟩ := (Works.OnlyStation.refl v st).report (b := c.breakReport id (w.station st).wirePlace)
  have record (j : Nat) : (w.breakSettled st id c).contour? j = v.contour? j := Works.contour?_congr contours j
  refine ⟨time, pool, fun j hj => ?_, fun j hj => ?_, ?_, Notices.flag_of_raise (by decide) _⟩
  · refine (Works.station_upd_other _ _ _ _ hj).trans ((other j hj).trans ?_)
    exact Works.station_upd_other _ _ _ _ hj
  · exact (record j).trans (Works.contour?_modContour_other _ _ _ _ hj)
  · rw [record, Works.contour?_modContour_same, Works.contour?_upd, hc, Option.map_some]

end

/-- A BREAK edge delivered to its station. -/
theorem exec_breakEdge {s : State} {st : St} (on : (s.line st .breakLine).enable = true)
    (off : (s.line st .breakLine).isActive = false) {v : Works} (h : s.works.breakEdge st = v) :
    exec (.breakEdge st) s =
      .next ({ s.setLine st .breakLine { s.line st .breakLine with level := (s.line st .breakLine).edge.activeLevel } with
        works := v } : State).upstream := by
  rw [← h]
  exact congrArg (fun t : State => t.finish) (State.goActive_of_edge on off)

/-- Settles O39: the edge by the wire's state, the episode's and the station's, the settlement by
`Works.settleBreak_settles`. -/
theorem breakEdgesActByWireState : Obligations.BreakEdgesActByWireState := by
  unfold Obligations.BreakEdgesActByWireState
  refine ⟨fun b => ⟨b.isCutOrKerf_iff, b.isBrokenWork_iff⟩, fun w st id c => ?boundary, fun s st => ?edge⟩
  case boundary =>
    intro last next tail
    have last_eq : c.lastMain = last := rfl
    refine ⟨fun outside => ?_, fun trigger p hp hi => ?_⟩
    · have main : w.boundary st id c = c.mainBoundary := by
        rw [Works.boundary, Works.tailWork_of_not_inPass outside]
      rw [main, ← last_eq]
      exact ⟨fun e h he hm => Contour.mainBoundary_of_entry h he hm, fun h he => Contour.mainBoundary_of_missing h he,
        fun e h he => Contour.mainBoundary_of_all_cut h he⟩
    · have inTail : w.boundary st id c = c.tailBoundary p.approach := by
        rw [Works.boundary, Works.tailWork_of_pass hp hi]
      rw [inTail, c.tailOrder_eq p.approach]
      exact ⟨fun before e after h hb he => Contour.tailBoundary_of_first h hb he,
        fun before e h hb he => Contour.tailBoundary_of_all_cut h hb he⟩
  case edge =>
    intro l on off x s1 quiet
    refine ⟨fun hw he => ?_, fun e hw he => ⟨fun hs => ?_, fun hs hb => ?_, fun hs => ?_⟩, fun hw hs => ?_,
      fun hw hs hcut => ?_, fun hw hs hstill => ?_⟩
    · exact exec_breakEdge on off ((Works.breakEdge_of_not_threaded hw).trans (Works.breakInEpisode_of_none he))
    · exact exec_breakEdge on off ((Works.breakEdge_of_not_threaded hw).trans (Works.breakInEpisode_of_quiet he hs))
    · exact exec_breakEdge on off ((Works.breakEdge_of_not_threaded hw).trans (Works.breakInEpisode_of_feeding he hs hb))
    · exact exec_breakEdge on off ((Works.breakEdge_of_not_threaded hw).trans (Works.breakInEpisode_of_locked he hs))
    · exact exec_breakEdge on off (Works.breakEdge_of_aborting hw hs)
    · exact exec_breakEdge on off ((Works.breakEdge_of_working hw hs).trans (Works.chargeBreak_of_cutting hcut))
    · have settles := Works.settleBreak_settles (s.works.broken st) st none none
      have here : (s.works.broken st).station st = { x with wire := .broken, breakPending := true } :=
        Works.station_upd_same _ _ _
      refine ⟨_, exec_breakEdge on off ((Works.breakEdge_of_working hw hs).trans (Works.chargeBreak_of_still hstill)),
        settles, fun id c hi hc hp hl => ?_⟩
      have within := Works.BreakSettles.eq_of_within_limit (w := s.works.broken st) (by rw [here]; exact hi) hc
        (by rw [here]; exact hp) hl settles
      obtain ⟨time, pool, other, others, record, flag⟩ := Works.breakSettled_frame (w := s.works.broken st) (st := st) hc
      obtain ⟨rs, lost, settled, reported⟩ := (s.works.broken st).breakSettled_station st id c
      rw [here] at settled reported
      rw [within, settled]
      exact ⟨time, pool, fun j hj => (other j hj).trans (Works.station_upd_other _ _ _ _ hj), others, record, flag, rfl, rfl,
        rfl, rfl, rfl, reported⟩

end Sys2Proof.Machine
end

section
/-! PROOFS. O51: an accepted frame, from its bytes to the queue (R34, R39, R42, R43, R45, R47, 12.2). -/

namespace Sys2Proof.Machine

/-! ## A path frame from its bytes (12.2) -/

theorem receiveFrame_path {bytes : List Byte} {f : PathFrame} (h : receiveFrame bytes = some (.path f)) :
    4 ≤ bytes.length ∧ 13 ≤ ((bytes.take (bytes.length - 2)).drop 2).length
      ∧ f = pathOfBody ((bytes.take (bytes.length - 2)).drop 2) := by
  unfold receiveFrame at h
  split at h
  case isFalse => cases h
  case isTrue passed =>
    rw [Bool.and_eq_true] at passed
    obtain ⟨long, -⟩ := (sound_iff bytes).mp passed.1
    rw [payload_eq_content long] at h
    dsimp only at h
    split at h
    case isTrue =>
      split at h
      case isTrue fits =>
        injection h with h
        injection h with h
        exact ⟨long, fits, h.symm⟩
      case isFalse => cases h
    case isFalse =>
      split at h
      · split at h
        · injection h with h
          injection h
        · cases h
      · cases h

/-- The fields of a frame by their places in the received bytes. -/
theorem pathFrame_of_bytes {bytes : List Byte} {f : PathFrame} (h : receiveFrame bytes = some (.path f)) :
    let b : Nat → Byte := fun i => byteAt bytes (i + 2)
    f = { station := b 0, tag := b 1, seq := b 2 ++ b 3, kind := b 4, flags := b 5, contour := b 6, ordinal := b 7 ++ b 8
          length := b 9 ++ b 10 ++ b 11, feed := b 12, rest := (bytes.take (bytes.length - 2)).drop 15 } := by
  intro b
  obtain ⟨long, fits, rfl⟩ := receiveFrame_path h
  have count := content_length long
  have stands {i : Nat} (hi : i < 13) : byteAt ((bytes.take (bytes.length - 2)).drop 2) i = b i :=
    byteAt_content (by omega)
  simp (disch := decide) only [pathOfBody, word24At, word16At, stands, List.drop_drop]

/-! ## A frame's kind and segment (R34) -/

section

variable {f : PathFrame} {k : PathKind}

theorem PathFrame.kind_eq (h : pathKindOf f.kind = some k) :
    k = if f.kind = 0 then .cutLine else if f.kind = 1 then .arcCw else if f.kind = 2 then .arcCcw
      else if f.kind = 3 then .travel else if f.kind = 4 then .dwell else if f.kind = 5 then .tabs else .endProgram := by
  have code : f.kind = BitVec.ofNat 8 k.code := by
    rw [← pathKindOf_eq_some_iff.mp h, BitVec.ofNat_toNat, BitVec.setWidth_eq]
  rw [code]
  cases k <;> rfl

theorem PathKind.isArc_eq_decide (k : PathKind) : k.isArc = decide (k = .arcCw ∨ k = .arcCcw) := by cases k <;> rfl

theorem PathFrame.segment_facts (h : pathKindOf f.kind = some k) :
    let at3 : Nat → Coord := fun i => byteAt f.rest i ++ byteAt f.rest (i + 1) ++ byteAt f.rest (i + 2)
    let isArc := k = .arcCw ∨ k = .arcCcw
    let q := f.segment k
    q.kind = k ∧ q.length = f.length.toNat ∧ q.feed = f.feed.toNat
      ∧ (f.kind.toNat ≤ 3 → q.endX = at3 0 ∧ q.endY = at3 3)
      ∧ q.centre = (if isArc then some (at3 6, at3 9) else none)
      ∧ (f.flags.getLsbD 3 = false → q.taper = none)
      ∧ (f.flags.getLsbD 3 = true → isArc → q.taper = some (at3 12, at3 15))
      ∧ (f.flags.getLsbD 3 = true → ¬isArc → q.taper = some (at3 6, at3 9)) := by
  intro at3 isArc q
  have arc : k.isArc = true ↔ isArc := by rw [PathKind.isArc_eq_decide, decide_eq_true_iff]
  refine ⟨rfl, rfl, rfl, fun within => ?_, ?_, fun plain => ?_, fun tapered harc => ?_, fun tapered harc => ?_⟩
  · have ends : k.hasEnd = true := k.hasEnd_iff.mpr (pathKindOf_eq_some_iff.mp h ▸ within)
    exact ⟨if_pos ends, if_pos ends⟩
  · by_cases harc : isArc
    · exact (if_pos (arc.mpr harc)).trans (if_pos harc).symm
    · exact (if_neg (mt arc.mp harc)).trans (if_neg harc).symm
  · exact if_neg (Bool.eq_false_iff.mp plain)
  · exact (if_pos tapered).trans (congrArg (fun i => some (pairAt f.rest i)) (if_pos (arc.mpr harc)))
  · exact (if_pos tapered).trans (congrArg (fun i => some (pairAt f.rest i)) (if_neg (mt arc.mp harc)))

end

/-! ## The free handle (R47) -/

/-- The handles in the order in which they are looked at, counted from last assigned. -/
def handleSteps : List (Fin 8) := [1, 2, 3, 4, 5, 6, 7, 0]

theorem handleSteps_at (n : Fin 8) :
    handleSteps = handleSteps.take n.val ++ (1 + n) :: handleSteps.drop (n.val + 1)
      ∧ ∀ x ∈ handleSteps.take n.val, ∃ m < n, x = 1 + m := by
  revert n
  decide

/-- A byte of eight set bits is 0xFF. -/
theorem eq_allOnes_of_bits {b : BitVec 8} (h : ∀ i : Fin 8, b.getLsbD i.val = true) : b = 0xFF := by
  refine BitVec.eq_of_getLsbD_eq fun i hi => (h ⟨i, hi⟩).trans ?_
  revert i
  decide

/-- What some handle has, a least one has. -/
theorem exists_least {p : Fin 8 → Prop} (n : Fin 8) (h : p n) : ∃ k, p k ∧ ∀ m < k, ¬p m := by
  by_cases below : ∃ m, m < n ∧ p m
  · obtain ⟨m, hm, pm⟩ := below
    exact exists_least m pm
  · exact ⟨n, h, fun m hm pm => below ⟨m, hm, pm⟩⟩
termination_by n.val

/-- Every handle is some way up from the one after last assigned. -/
theorem handle_reached (last i : Fin 8) : last + 1 + (i - (last + 1)) = i := by
  revert last i
  decide

theorem handle_step (last n : Fin 8) : last + (1 + n) = last + 1 + n := by
  revert last n
  decide

/-- With a handle FREE, the first from last assigned + 1 upward is found. -/
theorem Admission.freeHandle_of_room {a : Admission} (h : a.handles ≠ 0xFF) :
    ∃ n : Fin 8, a.freeHandle = some (a.lastAssigned + 1 + n)
      ∧ (∀ m < n, a.handles.getLsbD (a.lastAssigned + 1 + m).val = true)
      ∧ a.handles.getLsbD (a.lastAssigned + 1 + n).val = false := by
  have some_free : ∃ i : Fin 8, a.handles.getLsbD i.val ≠ true :=
    Classical.not_forall.mp (mt eq_allOnes_of_bits h)
  obtain ⟨i, unset⟩ := some_free
  obtain ⟨n, first, least⟩ := exists_least (p := fun n => a.handles.getLsbD (a.lastAssigned + 1 + n).val ≠ true)
    (i - (a.lastAssigned + 1)) (by rw [handle_reached]; exact unset)
  have below (m : Fin 8) (hm : m < n) := Classical.not_not.mp (least m hm)
  refine ⟨n, ?_, below, Bool.eq_false_iff.mpr first⟩
  obtain ⟨order, earlier⟩ := handleSteps_at n
  refine List.findSome?_eq_some_iff.mpr ⟨_, _, _, order, ?_, fun x hx => ?_⟩
  · rw [handle_step]
    exact if_neg first
  · obtain ⟨m, hm, rfl⟩ := earlier x hx
    rw [handle_step]
    exact if_pos (below m hm)

end Sys2Proof.Machine
end

section
/-! PROOFS. O51: an accepted frame, its statement. -/

namespace Sys2Proof.Machine

/-! ## What the checks ensure (R39, R41) -/

/-- Every check that acceptance relies on. -/
structure Works.Passes (w : Works) (st : St) (f : PathFrame) (p : Program) : Prop where
  notClosed : p.closed = false
  fields : f.fieldsOk = true
  handle : f.isMarked = true → (w.station st).adm.handles ≠ 0xFF
  owned : f.isCut = true → w.foreign st f.contour.toNat = false
  chain : w.breaksChain st f = false

theorem refusal_eq_none_iff {c : Prop} [Decidable c] {r : RefusalReason} {o : Option RefusalReason} :
    (if c then some r else o) = none ↔ ¬c ∧ o = none := by
  by_cases h : c
  · rw [if_pos h]
    exact iff_of_false nofun fun passed => passed.1 h
  · rw [if_neg h]
    exact (and_iff_right h).symm

theorem Works.passes_of_judge {w : Works} {st : St} {f : PathFrame} {p : Program} (h : w.judge st f = none)
    (hp : (w.station st).adm.program = some p) : w.Passes st f p := by
  have working : (w.station st).state = .active ∨ (w.station st).state = .held := by
    cases hs : (w.station st).state with
    | active => exact .inl rfl
    | held => exact .inr rfl
    | idle => rw [Works.judge_of_idle hs] at h; cases h
    | aborting => rw [Works.judge_of_aborting hs] at h; cases h
  rw [Works.judge_of_program working hp] at h
  simp only [refusal_eq_none_iff, and_true] at h
  obtain ⟨hclosed, -, -, hfields, -, hhandle, howned, hchain⟩ := h
  exact
    { notClosed := Bool.eq_false_iff.mpr hclosed
      fields := Bool.not_eq_false _ |>.mp hfields
      handle := fun marked held => hhandle ⟨marked, held⟩
      owned := fun cut => Bool.eq_false_iff.mpr fun foreign => howned ⟨cut, foreign⟩
      chain := Bool.eq_false_iff.mpr hchain }

/-- A frame whose fields pass has a kind. -/
theorem PathFrame.kind_of_fields {f : PathFrame} (h : f.fieldsOk = true) : ∃ k, pathKindOf f.kind = some k := by
  cases hk : pathKindOf f.kind with
  | some k => exact ⟨k, rfl⟩
  | none => simp only [PathFrame.fieldsOk, hk, Bool.false_eq_true] at h

theorem PathFrame.kindD_of_kind {f : PathFrame} {k : PathKind} (h : pathKindOf f.kind = some k) : f.kindD = k := by
  rw [PathFrame.kindD, h, Option.getD_some]

theorem PathKind.endProgram_iff (k : PathKind) : (k == .endProgram) = decide (k.code = 6) := by cases k <;> rfl

/-! ## Admission's own state (R42, R47) -/

section

variable {a : Admission} {f : PathFrame}

theorem PathFrame.handleFrom_of_unmarked (h : f.isMarked = false) : f.handleFrom a = none :=
  if_neg (Bool.eq_false_iff.mp h)

theorem PathFrame.handleFrom_of_marked (h : f.isMarked = true) : f.handleFrom a = a.freeHandle := if_pos h

theorem Admission.accept_handles_of_none (h : f.handleFrom a = none) :
    (a.accept f).handles = a.handles ∧ (a.accept f).lastAssigned = a.lastAssigned := by
  simp only [Admission.accept, h, and_self]

theorem Admission.accept_handles_of_some {n : Fin 8} (h : f.handleFrom a = some n) :
    (a.accept f).handles = a.handles ||| bit8 n ∧ (a.accept f).lastAssigned = n := by
  simp only [Admission.accept, h, Admission.hold, and_self]

theorem Admission.accept_program {p : Program} {k : PathKind} (hp : a.program = some p) (hopen : p.closed = false)
    (hk : pathKindOf f.kind = some k) :
    (a.accept f).program = some { p with expected := p.expected + 1, closed := decide (f.kind.toNat = 6) } := by
  simp only [Admission.accept, hp, Option.map_some, hopen, Bool.false_or, PathFrame.kindD_of_kind hk,
    PathKind.endProgram_iff, pathKindOf_eq_some_iff.mp hk]

/-- FIRST opens the contour and LAST closes it. -/
theorem Admission.accept_openContour :
    (a.accept f).openContour =
      if f.isCut then if f.isLast then none else if f.isFirst then some f.contour.toNat else a.openContour
      else a.openContour := rfl

end

/-- The open contour behind a frame that keeps the chain. -/
theorem Works.accept_openContour_of_chain {w : Works} {st : St} {f : PathFrame}
    (howned : f.isCut = true → w.foreign st f.contour.toNat = false) (hchain : w.breaksChain st f = false) :
    ((w.station st).adm.accept f).openContour =
      if f.kind.toNat ≤ 2 then if f.flags.getLsbD 1 then none else some f.contour.toNat else none := by
  rw [Admission.accept_openContour]
  by_cases hcut : f.isCut = true
  case pos =>
    have owned : ∃ c, w.contour? f.contour.toNat = some c := by
      cases hc : w.contour? f.contour.toNat with
      | some c => exact ⟨c, rfl⟩
      | none =>
        refine absurd ((Works.foreign_iff (st := st) _).mpr fun c h => ?_) (Bool.eq_false_iff.mp (howned hcut))
        cases hc.symm.trans h
    obtain ⟨c, hc⟩ := owned
    have opened : (if f.isFirst then some f.contour.toNat else (w.station st).adm.openContour)
        = some f.contour.toNat := by
      cases hfirst : f.isFirst with
      | true => exact if_pos rfl
      | false =>
        refine Classical.byContradiction fun other => ?_
        exact Bool.eq_false_iff.mp hchain ((Works.breaksChain_of_cut hcut hc).mpr (.inr (.inl ⟨hfirst, other⟩)))
    rw [if_pos hcut, if_pos (f.isCut_iff.mp hcut), opened]
    rfl
  case neg =>
    rw [if_neg hcut, if_neg (mt f.isCut_iff.mpr hcut)]
    refine Classical.byContradiction fun other => ?_
    exact Bool.eq_false_iff.mp hchain ((Works.breaksChain_of_directive hcut).mpr other)

/-! ## The works of an accepted frame (R42, R43, R45) -/

/-- The frame is taken: Admission's state and the contour's record. -/
def Works.admitted (w : Works) (st : St) (f : PathFrame) : Works :=
  if f.isCut then
    (w.upd st fun x => { x with adm := x.adm.accept f }).modContour f.contour.toNat fun c => c.arrive f.isFirst
  else w.upd st fun x => { x with adm := x.adm.accept f }

section

variable {w : Works} {st : St} {f : PathFrame}

theorem Works.admitted_of_cut (h : f.isCut = true) :
    w.admitted st f =
      (w.upd st fun x => { x with adm := x.adm.accept f }).modContour f.contour.toNat fun c => c.arrive f.isFirst := if_pos h

theorem Works.admitted_of_directive (h : ¬f.isCut = true) :
    w.admitted st f = w.upd st fun x => { x with adm := x.adm.accept f } := if_neg h

theorem Works.admitted_eq : w.admitted st f =
    { w.upd st (fun x => { x with adm := (w.station st).adm.accept f }) with contours := (w.admitted st f).contours } := by
  have same : (w.upd st fun x => { x with adm := x.adm.accept f })
      = w.upd st fun x => { x with adm := (w.station st).adm.accept f } := Works.upd_congr _ _ rfl
  rw [← same]
  by_cases h : f.isCut = true
  · rw [Works.admitted_of_cut h]
    rfl
  · rw [Works.admitted_of_directive h]

theorem Works.absorbs_iff :
    w.absorbs f = true ↔ f.kind.toNat ≤ 2 ∧ ∃ c, w.contour? f.contour.toNat = some c ∧ c.state = .failed := by
  rw [Works.absorbs, Bool.and_eq_true, f.isCut_iff, Option.any_eq_true]
  simp only [beq_iff_eq]

theorem Works.accept_of_absorbed (h : w.absorbs f = true) :
    w.accept st f =
      (((w.admitted st f).upd st fun x => { x with adm := x.adm.setConsumed f.seq }).progressUpdate st).markReport? st
        (f.entry (f.handleFrom (w.station st).adm)).mark .discarded := if_pos h

theorem Works.accept_of_queued (h : ¬w.absorbs f = true) :
    w.accept st f =
      ((w.admitted st f).upd st fun x =>
        { x with adm := { x.adm with queue := x.adm.queue ++ [f.entry (f.handleFrom (w.station st).adm)] } }).settle st :=
  if_neg h

end

theorem exec_pathFrame_of_accepted {s : State} {f : PathFrame} {st : St} (hst : stationOf f.station = some st)
    (h : s.works.judge st f = none) {v : Works} (hv : s.works.accept st f = v) :
    exec (.pathFrame f) s = .next ({ s with works := v } : State).upstream := by
  simp only [exec, execPathFrame, State.finish, State.takePath, hst, State.onWorks, Works.takePathFrame, h, hv]

/-- Settles O51: the bytes by `pathFrame_of_bytes`, the segment by kind, and what the frame makes of Admission, its contour
and the queue. -/
theorem acceptedFramesJoinTheQueue : Obligations.AcceptedFramesJoinTheQueue := by
  unfold Obligations.AcceptedFramesJoinTheQueue
  refine ⟨fun bytes f => pathFrame_of_bytes, fun f k hk => ⟨PathFrame.kind_eq hk, PathFrame.segment_facts hk⟩,
    fun s f st p hst hj hp => ?accepted⟩
  case accepted =>
    intro x id isCut absorbed
    have passes := Works.passes_of_judge hj hp
    obtain ⟨k, hk⟩ := PathFrame.kind_of_fields passes.fields
    have absorbs_iff : s.works.absorbs f = true ↔ absorbed := Works.absorbs_iff
    have entry_eq : f.entry (f.handleFrom x.adm) =
        { seq := f.seq, first := f.flags.getLsbD 0, last := f.flags.getLsbD 1, handle := f.handleFrom x.adm
          contour := id, ordinal := f.ordinal.toNat, seg := f.segment k } := by
      rw [PathFrame.entry, PathFrame.kindD_of_kind hk]
      rfl
    refine ⟨k, f.handleFrom x.adm, x.adm.accept f, s.works.admitted st f, hk, fun unmarked => ?_, fun marked => ?_,
      Admission.accept_program hp passes.notClosed hk, Works.accept_openContour_of_chain passes.owned passes.chain,
      Admission.accept_queue _ _, Works.admitted_eq, fun directive => ?_, fun cut => ?_, fun queued => ?_, fun hab => ?_⟩
    · have none := PathFrame.handleFrom_of_unmarked (a := x.adm) unmarked
      exact ⟨none, Admission.accept_handles_of_none none⟩
    · obtain ⟨n, found, earlier, free⟩ := Admission.freeHandle_of_room (passes.handle marked)
      have handle := (PathFrame.handleFrom_of_marked (a := x.adm) marked).trans found
      exact ⟨n, handle, earlier, free, Admission.accept_handles_of_some handle⟩
    · rw [Works.admitted_of_directive (mt f.isCut_iff.mp directive)]
      rfl
    · rw [Works.admitted_of_cut (f.isCut_iff.mpr cut)]
      refine ⟨fun j hj => Works.contour?_modContour_other _ _ _ _ hj, ?_⟩
      rw [Works.contour?_modContour_same]
      rfl
    · refine exec_pathFrame_of_accepted hst hj ((Works.accept_of_queued (mt absorbs_iff.mp queued)).trans ?_)
      rw [entry_eq]
    · exact exec_pathFrame_of_accepted hst hj (Works.accept_of_absorbed (absorbs_iff.mpr hab))

end Sys2Proof.Machine
end
